-- ==== Sys2Proof/Word.lean ====
section
/-! DEFINITION. The word types of the machine (`spec/00_scope.md` R5 to R7; `spec/10_state.md` R20 to R27). -/

namespace Sys2Proof

/-- A register, memory byte, timer or immediate `NN` (R20, R31). -/
abbrev Byte := BitVec 8

/-- An instruction word, `PC`, a stack entry (R23, R26, R70). -/
abbrev Word := BitVec 16

/-- The index register and the immediate `NNN` (R22, R72). -/
abbrev Addr := BitVec 12

/-- One nibble of an instruction word (R7). -/
abbrev Nibble := BitVec 4

/-- A register number: 0 to 15 select V0 to VF (R20). -/
abbrev Reg := BitVec 4

/-- A key code, 0 to 15 (`spec/60_exceptions.md` R232). -/
abbrev Key := BitVec 4

/-- One font glyph: five rows, top row first (R36). -/
abbrev Glyph := Vector Byte 5

/-- The font table: sixteen glyphs (R36). -/
abbrev Font := Vector Glyph 16

/-- The framebuffer: 32 rows of 64 one-bit cells, `true` for a cell that is 1 (R30). -/
abbrev Framebuffer := Vector (Vector Bool 64) 32

/-- `CYCLES_PER_SECOND`, the content of CYCLE_RATE: "a positive integer the host sets" (`spec/00_scope.md` R6). Its
width and its largest value are open (`spec/10_state.md` R34; assumption log 8). -/
abbrev CycleRate := ℕ+

end Sys2Proof
end

