-- ==== Sys2Proof/Config.lean ====
section
/-! DEFINITION. The parameters of the machine (`spec/00_scope.md` R5, R6) and its free values. -/

namespace Sys2Proof.Config

/-- `MEM_SIZE` (R5). -/
abbrev memSize : Nat := 4096

/-- `ROM_BASE` (R5): where a reset copies the ROM and where a run starts. -/
abbrev romBase : Nat := 0x200

/-- `ROM_MAX` (R5): the longest ROM a reset accepts. -/
abbrev romMax : Nat := 3584

/-- `KEYS` (`spec/92_eei_decisions.md`, open parameters; `spec/45_keypad.md` R165): what the key port shows at the
n-th sample; `none` is "no key". A FREE VALUE: it has no body, so a claim holds for every stream of samples
(assumption log 3). -/
opaque keySample : Nat → Option Key

/-- `RND` (`spec/43_random.md` R150): the n-th random byte. A FREE VALUE (assumption log 4). -/
opaque randomByte : Nat → Byte

/-- The customary font table of `spec/10_state.md` R37, which the spec marks as general knowledge. PRESUMED
(assumption log 6): only `State.reset` names it, as the value of the field `font`. -/
def customaryFont : Font :=
  #v[#v[0xF0, 0x90, 0x90, 0x90, 0xF0],
     #v[0x20, 0x60, 0x20, 0x20, 0x70],
     #v[0xF0, 0x10, 0xF0, 0x80, 0xF0],
     #v[0xF0, 0x10, 0xF0, 0x10, 0xF0],
     #v[0x90, 0x90, 0xF0, 0x10, 0x10],
     #v[0xF0, 0x80, 0xF0, 0x10, 0xF0],
     #v[0xF0, 0x80, 0xF0, 0x90, 0xF0],
     #v[0xF0, 0x10, 0x20, 0x40, 0x40],
     #v[0xF0, 0x90, 0xF0, 0x90, 0xF0],
     #v[0xF0, 0x90, 0xF0, 0x10, 0xF0],
     #v[0xF0, 0x90, 0xF0, 0x90, 0x90],
     #v[0xE0, 0x90, 0xE0, 0x90, 0xE0],
     #v[0xF0, 0x80, 0x80, 0x80, 0xF0],
     #v[0xE0, 0x90, 0x90, 0x90, 0xE0],
     #v[0xF0, 0x80, 0xF0, 0x80, 0xF0],
     #v[0xF0, 0x80, 0xF0, 0x80, 0x80]]

/-- `CYCLE_RATE` in `State.reset`. The spec gives no value (`spec/10_state.md` R34): DESIGN CHOICE (assumption
log 8). No rule of the instruction semantics depends on it. -/
def cycleRateAtReset : CycleRate := 1

end Sys2Proof.Config
end

