-- ==== Sys2Proof/Syntax.lean ====
section
/-! DEFINITION. The 34 instructions, one constructor per row of `spec/opcode_table.json`
(`spec/30_encoding.md` R74 to R78, R85). -/

namespace Sys2Proof

/-- The instruction set. `x`, `y` are register numbers, `n`, `nn`, `nnn` the immediates of R72.

Some bits of a word are never examined (R79). They stand in the term (`ignored`; the `y` of the two shifts) so that a
term and a word say the same thing: the fault record of a faulting `00EE` holds the very word that was fetched
(assumption log 18). -/
inductive Instr where
  /-- `00E0` CLS (R198); bits 11:8 ignored. -/
  | cls (ignored : Nibble)
  /-- `00EE` RET (R103); bits 11:8 ignored. -/
  | ret (ignored : Nibble)
  /-- `1NNN` JP NNN (R101). -/
  | jp (nnn : Addr)
  /-- `2NNN` CALL NNN (R102). -/
  | call (nnn : Addr)
  /-- `3XNN` SE VX, NN (R104). -/
  | seImm (x : Reg) (nn : Byte)
  /-- `4XNN` SNE VX, NN (R105). -/
  | sneImm (x : Reg) (nn : Byte)
  /-- `5XY0` SE VX, VY (R106); bits 3:0 ignored. -/
  | seReg (x y : Reg) (ignored : Nibble)
  /-- `6XNN` LD VX, NN (R121). -/
  | ldImm (x : Reg) (nn : Byte)
  /-- `7XNN` ADD VX, NN (R122). -/
  | addImm (x : Reg) (nn : Byte)
  /-- `8XY0` LD VX, VY (R123). -/
  | ldReg (x y : Reg)
  /-- `8XY1` OR VX, VY (R124). -/
  | orReg (x y : Reg)
  /-- `8XY2` AND VX, VY (R125). -/
  | andReg (x y : Reg)
  /-- `8XY3` XOR VX, VY (R126). -/
  | xorReg (x y : Reg)
  /-- `8XY4` ADD VX, VY (R127). -/
  | addReg (x y : Reg)
  /-- `8XY5` SUB VX, VY (R128). -/
  | subReg (x y : Reg)
  /-- `8XY6` SHR VX (R129); the Y field is ignored. -/
  | shr (x y : Reg)
  /-- `8XY7` SUBN VX, VY (R130). -/
  | subnReg (x y : Reg)
  /-- `8XYE` SHL VX (R131); the Y field is ignored. -/
  | shl (x y : Reg)
  /-- `9XY0` SNE VX, VY (R107); bits 3:0 ignored. -/
  | sneReg (x y : Reg) (ignored : Nibble)
  /-- `ANNN` LD I, NNN (R140). -/
  | ldI (nnn : Addr)
  /-- `BNNN` JP V0, NNN (R108). -/
  | jpV0 (nnn : Addr)
  /-- `CXNN` RND VX, NN (R150). -/
  | rnd (x : Reg) (nn : Byte)
  /-- `DXYN` DRW VX, VY, N (R155). -/
  | drw (x y : Reg) (n : Nibble)
  /-- `EX9E` SKP VX (R166). -/
  | skp (x : Reg)
  /-- `EXA1` SKNP VX (R167). -/
  | sknp (x : Reg)
  /-- `FX07` LD VX, DT (R175). -/
  | ldVxDt (x : Reg)
  /-- `FX0A` LD VX, K (R168). -/
  | ldVxK (x : Reg)
  /-- `FX15` LD DT, VX (R176). -/
  | ldDtVx (x : Reg)
  /-- `FX18` LD ST, VX (R177). -/
  | ldStVx (x : Reg)
  /-- `FX1E` ADD I, VX (R141). -/
  | addI (x : Reg)
  /-- `FX29` LD F, VX (R185). -/
  | ldF (x : Reg)
  /-- `FX33` LD B, VX (R186). -/
  | ldB (x : Reg)
  /-- `FX55` LD [I], VX (R187). -/
  | storeRegs (x : Reg)
  /-- `FX65` LD VX, [I] (R188). -/
  | loadRegs (x : Reg)
  deriving DecidableEq, Repr

end Sys2Proof
end

