-- ==== Sys2Proof/WellFormed.lean ====
section
/-! DEFINITION. Well-formed instructions: the canonical encodings, the only ones an assembler emits
(`spec/30_encoding.md` R79). Register numbers and immediates are in range by their types. -/

namespace Sys2Proof

/-- The instruction is in canonical form: the bits no decode key examines are 0. The Y field of the two shifts may
hold anything ("for (c): any Y", R79). The machine runs the other forms too, in the same way. -/
def Instr.wellFormed : Instr → Bool
  | .cls ignored => ignored == 0
  | .ret ignored => ignored == 0
  | .seReg _ _ ignored => ignored == 0
  | .sneReg _ _ ignored => ignored == 0
  | .jp _ | .call _ | .seImm _ _ | .sneImm _ _ | .ldImm _ _ | .addImm _ _ => true
  | .ldReg _ _ | .orReg _ _ | .andReg _ _ | .xorReg _ _ | .addReg _ _ | .subReg _ _ => true
  | .shr _ _ | .subnReg _ _ | .shl _ _ | .ldI _ | .jpV0 _ | .rnd _ _ | .drw _ _ _ => true
  | .skp _ | .sknp _ | .ldVxDt _ | .ldVxK _ | .ldDtVx _ | .ldStVx _ | .addI _ => true
  | .ldF _ | .ldB _ | .storeRegs _ | .loadRegs _ => true

end Sys2Proof
end

