-- ==== Sys2Proof/Decode.lean ====
section
/-! DEFINITION. From words to instructions and back (`spec/30_encoding.md` R70 to R86). -/

namespace Sys2Proof

/-! ### Fields of the word (R9, R71) -/

/-- `op[15:12]`, the top-level code. -/
def opTop (w : Word) : Nibble := w.extractLsb' 12 4
/-- `X = op[11:8]`. -/
def opX (w : Word) : Nibble := w.extractLsb' 8 4
/-- `Y = op[7:4]`. -/
def opY (w : Word) : Nibble := w.extractLsb' 4 4
/-- `N = op[3:0]`. -/
def opN (w : Word) : Nibble := w.extractLsb' 0 4
/-- `NN = op[7:0]`. -/
def opNN (w : Word) : Byte := w.extractLsb' 0 8
/-- `NNN = op[11:0]`. -/
def opNNN (w : Word) : Addr := w.extractLsb' 0 12

/-- A word of the formats with a 12-bit operand (R71). -/
def packNNN (top : Nibble) (nnn : Addr) : Word := top ++ nnn
/-- A word of the formats with X and a low byte (R71). -/
def packXNN (top x : Nibble) (nn : Byte) : Word := top ++ x ++ nn
/-- A word of the formats with X, Y and a low nibble (R71). -/
def packXYN (top x y n : Nibble) : Word := top ++ x ++ y ++ n

/-! ### The opcode numbers

The one table of numbers, used by the decoder and the encoder alike. All but 0x6, 0xA, 0xD, 0x29 and the family codes
are general knowledge by the spec's own mark (R84, `spec/93_implementation_defined.md` G1; assumption log 10). -/

namespace Opcode

abbrev family0 : Nibble := 0x0
abbrev jp : Nibble := 0x1
abbrev call : Nibble := 0x2
abbrev seImm : Nibble := 0x3
abbrev sneImm : Nibble := 0x4
abbrev seReg : Nibble := 0x5
abbrev ldImm : Nibble := 0x6
abbrev addImm : Nibble := 0x7
abbrev family8 : Nibble := 0x8
abbrev sneReg : Nibble := 0x9
abbrev ldI : Nibble := 0xA
abbrev jpV0 : Nibble := 0xB
abbrev rnd : Nibble := 0xC
abbrev drw : Nibble := 0xD
abbrev familyE : Nibble := 0xE
abbrev familyF : Nibble := 0xF

/-! Family 0x0, key `op[7:0]` (R75). -/
abbrev cls : Byte := 0xE0
abbrev ret : Byte := 0xEE

/-! Family 0x8, key `op[3:0]` (R76). -/
abbrev ldReg : Nibble := 0x0
abbrev orReg : Nibble := 0x1
abbrev andReg : Nibble := 0x2
abbrev xorReg : Nibble := 0x3
abbrev addReg : Nibble := 0x4
abbrev subReg : Nibble := 0x5
abbrev shr : Nibble := 0x6
abbrev subnReg : Nibble := 0x7
abbrev shl : Nibble := 0xE

/-! Family 0xE, key `op[7:0]` (R77). -/
abbrev skp : Byte := 0x9E
abbrev sknp : Byte := 0xA1

/-! Family 0xF, key `op[7:0]` (R78). -/
abbrev ldVxDt : Byte := 0x07
abbrev ldVxK : Byte := 0x0A
abbrev ldDtVx : Byte := 0x15
abbrev ldStVx : Byte := 0x18
abbrev addI : Byte := 0x1E
abbrev ldF : Byte := 0x29
abbrev ldB : Byte := 0x33
abbrev storeRegs : Byte := 0x55
abbrev loadRegs : Byte := 0x65

end Opcode

/-! ### The decoder -/

/-- Why bytes are no instruction. -/
inductive Reject where
  /-- A word of the unimplemented space (R80). The machine goes on past it (R199). -/
  | unimplemented (w : Word)
  /-- Fewer than two bytes were given; a fetch never gives so few. -/
  | truncated
  deriving DecidableEq, Repr

/-- Family 0x0 (R75); `op[11:8]` is not examined. -/
def decodeFamily0 (w : Word) : Except Reject Instr :=
  if opNN w = Opcode.cls then .ok (.cls (opX w))
  else if opNN w = Opcode.ret then .ok (.ret (opX w))
  else .error (.unimplemented w)

/-- Family 0x8 (R76). -/
def decodeFamily8 (w : Word) : Except Reject Instr :=
  if opN w = Opcode.ldReg then .ok (.ldReg (opX w) (opY w))
  else if opN w = Opcode.orReg then .ok (.orReg (opX w) (opY w))
  else if opN w = Opcode.andReg then .ok (.andReg (opX w) (opY w))
  else if opN w = Opcode.xorReg then .ok (.xorReg (opX w) (opY w))
  else if opN w = Opcode.addReg then .ok (.addReg (opX w) (opY w))
  else if opN w = Opcode.subReg then .ok (.subReg (opX w) (opY w))
  else if opN w = Opcode.shr then .ok (.shr (opX w) (opY w))
  else if opN w = Opcode.subnReg then .ok (.subnReg (opX w) (opY w))
  else if opN w = Opcode.shl then .ok (.shl (opX w) (opY w))
  else .error (.unimplemented w)

/-- Family 0xE (R77). -/
def decodeFamilyE (w : Word) : Except Reject Instr :=
  if opNN w = Opcode.skp then .ok (.skp (opX w))
  else if opNN w = Opcode.sknp then .ok (.sknp (opX w))
  else .error (.unimplemented w)

/-- Family 0xF (R78). -/
def decodeFamilyF (w : Word) : Except Reject Instr :=
  if opNN w = Opcode.ldVxDt then .ok (.ldVxDt (opX w))
  else if opNN w = Opcode.ldVxK then .ok (.ldVxK (opX w))
  else if opNN w = Opcode.ldDtVx then .ok (.ldDtVx (opX w))
  else if opNN w = Opcode.ldStVx then .ok (.ldStVx (opX w))
  else if opNN w = Opcode.addI then .ok (.addI (opX w))
  else if opNN w = Opcode.ldF then .ok (.ldF (opX w))
  else if opNN w = Opcode.ldB then .ok (.ldB (opX w))
  else if opNN w = Opcode.storeRegs then .ok (.storeRegs (opX w))
  else if opNN w = Opcode.loadRegs then .ok (.loadRegs (opX w))
  else .error (.unimplemented w)

/-- The decoder: the high nibble first, then the key of the family (R73). It depends on no state. -/
def decodeWord (w : Word) : Except Reject Instr :=
  if opTop w = Opcode.family0 then decodeFamily0 w
  else if opTop w = Opcode.jp then .ok (.jp (opNNN w))
  else if opTop w = Opcode.call then .ok (.call (opNNN w))
  else if opTop w = Opcode.seImm then .ok (.seImm (opX w) (opNN w))
  else if opTop w = Opcode.sneImm then .ok (.sneImm (opX w) (opNN w))
  else if opTop w = Opcode.seReg then .ok (.seReg (opX w) (opY w) (opN w))
  else if opTop w = Opcode.ldImm then .ok (.ldImm (opX w) (opNN w))
  else if opTop w = Opcode.addImm then .ok (.addImm (opX w) (opNN w))
  else if opTop w = Opcode.family8 then decodeFamily8 w
  else if opTop w = Opcode.sneReg then .ok (.sneReg (opX w) (opY w) (opN w))
  else if opTop w = Opcode.ldI then .ok (.ldI (opNNN w))
  else if opTop w = Opcode.jpV0 then .ok (.jpV0 (opNNN w))
  else if opTop w = Opcode.rnd then .ok (.rnd (opX w) (opNN w))
  else if opTop w = Opcode.drw then .ok (.drw (opX w) (opY w) (opN w))
  else if opTop w = Opcode.familyE then decodeFamilyE w
  else decodeFamilyF w

/-- The word of two consecutive bytes: the byte at the lower address is the high byte (`spec/20_memory.md` R53). -/
def wordOfBytes (hi lo : Byte) : Word := hi ++ lo

/-- The two bytes of a word in the order memory holds them (R53). -/
def bytesOfWord (w : Word) : List Byte := [w.extractLsb' 8 8, w.extractLsb' 0 8]

/-- Decode the instruction at the head of a list of bytes; every instruction is two bytes long (R70). -/
def decode : List Byte → Except Reject (Instr × List Byte)
  | hi :: lo :: rest =>
    match decodeWord (wordOfBytes hi lo) with
    | .ok i => .ok (i, rest)
    | .error r => .error r
  | _ => .error .truncated

/-! ### The encoder -/

/-- The word of an instruction (R74 to R78). -/
def encode : Instr → Word
  | .cls ignored => packXNN Opcode.family0 ignored Opcode.cls
  | .ret ignored => packXNN Opcode.family0 ignored Opcode.ret
  | .jp nnn => packNNN Opcode.jp nnn
  | .call nnn => packNNN Opcode.call nnn
  | .seImm x nn => packXNN Opcode.seImm x nn
  | .sneImm x nn => packXNN Opcode.sneImm x nn
  | .seReg x y ignored => packXYN Opcode.seReg x y ignored
  | .ldImm x nn => packXNN Opcode.ldImm x nn
  | .addImm x nn => packXNN Opcode.addImm x nn
  | .ldReg x y => packXYN Opcode.family8 x y Opcode.ldReg
  | .orReg x y => packXYN Opcode.family8 x y Opcode.orReg
  | .andReg x y => packXYN Opcode.family8 x y Opcode.andReg
  | .xorReg x y => packXYN Opcode.family8 x y Opcode.xorReg
  | .addReg x y => packXYN Opcode.family8 x y Opcode.addReg
  | .subReg x y => packXYN Opcode.family8 x y Opcode.subReg
  | .shr x y => packXYN Opcode.family8 x y Opcode.shr
  | .subnReg x y => packXYN Opcode.family8 x y Opcode.subnReg
  | .shl x y => packXYN Opcode.family8 x y Opcode.shl
  | .sneReg x y ignored => packXYN Opcode.sneReg x y ignored
  | .ldI nnn => packNNN Opcode.ldI nnn
  | .jpV0 nnn => packNNN Opcode.jpV0 nnn
  | .rnd x nn => packXNN Opcode.rnd x nn
  | .drw x y n => packXYN Opcode.drw x y n
  | .skp x => packXNN Opcode.familyE x Opcode.skp
  | .sknp x => packXNN Opcode.familyE x Opcode.sknp
  | .ldVxDt x => packXNN Opcode.familyF x Opcode.ldVxDt
  | .ldVxK x => packXNN Opcode.familyF x Opcode.ldVxK
  | .ldDtVx x => packXNN Opcode.familyF x Opcode.ldDtVx
  | .ldStVx x => packXNN Opcode.familyF x Opcode.ldStVx
  | .addI x => packXNN Opcode.familyF x Opcode.addI
  | .ldF x => packXNN Opcode.familyF x Opcode.ldF
  | .ldB x => packXNN Opcode.familyF x Opcode.ldB
  | .storeRegs x => packXNN Opcode.familyF x Opcode.storeRegs
  | .loadRegs x => packXNN Opcode.familyF x Opcode.loadRegs

/-- The bytes of an instruction, lowest address first (R53, R70). -/
def encodeBytes (i : Instr) : List Byte := bytesOfWord (encode i)

/-- The word the host's `(nbits, w)` stands for: `w` cut to `nbits` bits, the rest 0. Every row of the table has 16. -/
def tableWord (nbits w : Nat) : Word := BitVec.ofNat 16 (w % 2 ^ nbits)

/-- The instruction the decoder reads from an opcode-table word, laid out in memory order. -/
def decodeTableWord (nbits w : Nat) : Option Instr :=
  match decode (bytesOfWord (tableWord nbits w)) with
  | .ok (i, _) => some i
  | .error _ => none

end Sys2Proof
end

