-- ==== Sys2Proof/Machine/State.lean ====
section
/-! DEFINITION. The state of the machine as plain data, the events that change it, and the state after reset
(`spec/10_state.md`, `spec/60_exceptions.md`). -/

namespace Sys2Proof.Machine

/-- `RUN_STATE` (`spec/10_state.md` R32). Code 3 is never produced and has no constructor
(`spec/93_implementation_defined.md` U25). -/
inductive RunState where
  | stopped
  | running
  | paused
  deriving DecidableEq, Repr

/-- The fault codes of `spec/60_exceptions.md` R200. Code 7 (MissingHostHook) is never raised by this hardware (R237)
and has no constructor (U25; assumption log 14). -/
inductive FaultKind where
  /-- Code 0. -/
  | none
  /-- Code 1, R201: recoverable. -/
  | unimplementedInstruction
  /-- Code 2, R202: fatal to the run. -/
  | stackOverflow
  /-- Code 3, R203: fatal to the run. -/
  | stackUnderflow
  /-- Code 4, R204: fatal to the run. -/
  | memoryBounds
  /-- Code 5, R205: a reset command rejected. -/
  | oversizedRom
  /-- Code 6, R242, R245: a load-state command refused. -/
  | loadStateRefused
  deriving DecidableEq, Repr

/-- The fields of the snapshot port in the order of `spec/60_exceptions.md` R243. What a host supplies to load-state
may have any length and any value, so the fields are lists and numbers; `Snapshot.accepted` says which are taken
(R245; assumption log 12). -/
structure Snapshot where
  mem : List Byte
  pc : Word
  v : List Byte
  i : Nat
  stack : List Word
  sp : Nat
  dt : Byte
  st : Byte
  fb : List Byte
  deriving DecidableEq, Repr

/-- The host commands (R213 to R217, R231, R240, R241). -/
inductive Command where
  | reset (rom : List Byte)
  | pause
  | unpause
  | stop
  | saveState
  | loadState (fields : Snapshot)
  deriving DecidableEq, Repr

/-- A host read of framebuffer cell `index` that falls inside an instruction step: it returns the cell's value after
the step where `after` says so, before it otherwise (`spec/44_sprite_draw.md` R158). -/
structure TornRead where
  index : BitVec 11
  after : Bool
  deriving DecidableEq, Repr

/-- The events of the machine: each is one atomic transition (`spec/00_scope.md` R11, `spec/60_exceptions.md` R218). -/
inductive Event where
  /-- One instruction step of the interpreter (R212). -/
  | step
  /-- One instruction step during which the host reads framebuffer cells, in this order (R158). -/
  | tornStep (reads : List TornRead)
  /-- One timer tick (R220). -/
  | tick
  /-- One host command (R231). -/
  | command (c : Command)
  /-- A write of CYCLE_RATE, a positive integer, through `cfg_cycle_rate` (`spec/00_scope.md` R6, `spec/10_state.md` R34,
  R230). -/
  | setCycleRate (rate : CycleRate)
  /-- A host read of one framebuffer cell between steps (R235). -/
  | readCell (index : BitVec 11)
  deriving DecidableEq, Repr

/-- What the block emits at its output ports. -/
inductive Output where
  /-- A pulse of `tone_start` (R234). -/
  | toneStart
  /-- A pulse of `tone_stop` (R234). -/
  | toneStop
  /-- One diagnostic record (R207). -/
  | diag (kind : FaultKind) (a b : Word)
  /-- The fields a save-state hands to the host (R240). -/
  | snapshot (fields : Snapshot)
  /-- The answer to a framebuffer read (R235). -/
  | cell (index : BitVec 11) (data : Byte)
  deriving DecidableEq, Repr

/-- The faults of the model, as an outcome outside the machine. There are none: every fault the spec describes is a
transition of the machine (the fatal fault entry of R206 is a next state with the fault record written), and nothing
in this machine is stuck (`spec/93_implementation_defined.md`, Part 1). Safe: no step is lost (assumption log 13). -/
inductive Fault where
  deriving DecidableEq, Repr

/-- Why a step has no meaning in the model. -/
inductive Refusal where
  /-- Raised only by an arm of `exec` whose instruction has no meaning yet, named as in `spec/opcode_table.json`. No
  arm raises it now. Safe: a claim about a next state cannot be proved from it. -/
  | notModelled (mnemonic : String)
  deriving DecidableEq, Repr

/-- The state. The first seventeen fields are the spec's (`spec/10_state.md` R20 to R36); the last six are the model's
own record of inputs, of the order of events and of outputs (assumption log 1, 3, 4, 5). -/
structure State where
  /-- V0 to VF (R20, R21). -/
  v : Vector Byte 16
  /-- The index register (R22). -/
  i : Addr
  /-- The program counter (R23 to R25). -/
  pc : Word
  /-- The call stack (R26). -/
  stack : Vector Word 16
  /-- The number of return addresses on the stack, 0 to 16 (R27). -/
  sp : Fin 17
  /-- The delay timer (R28). -/
  dt : Byte
  /-- The sound timer (R29). -/
  st : Byte
  /-- The framebuffer (R30). -/
  fb : Framebuffer
  /-- Main memory (R31): the bytes that differ from the reset contents, in canonical form (`Memory.wf`). -/
  mem : List Host.Cell
  /-- The font table, a constant no event changes (R36, R37; assumption log 6). -/
  font : Font
  /-- RUN_STATE (R32). -/
  runState : RunState
  /-- FAULT_KIND (R33). -/
  faultKind : FaultKind
  /-- FAULT_OPCODE (R33). -/
  faultOpcode : Word
  /-- FAULT_PC (R33). -/
  faultPc : Word
  /-- CYCLE_RATE, a positive integer (R6, R34; assumption log 8). -/
  cycleRate : CycleRate
  /-- WAITKEY (R35). -/
  waitKey : Bool
  /-- IR (R35). -/
  ir : Word
  /-- Key samples the host has fixed, next first. -/
  keyFeed : List (Option Key)
  /-- How many key samples have been taken. -/
  keyDraws : Nat
  /-- Random bytes the host has fixed, next first. -/
  rndFeed : List Byte
  /-- How many random bytes have been taken. -/
  rndDraws : Nat
  /-- The coming events, next first; past its end the interpreter steps. -/
  agenda : List Event
  /-- What the ports have emitted, oldest first. -/
  outputs : List Output
  deriving DecidableEq, Repr

/-- The state after an accepted reset (`spec/10_state.md` R39) with a ROM of length 0, which is accepted
(`spec/70_reset_and_hazards.md` R260): memory lists nothing, so it reads as the font and zeros. The values the spec
does not give are `font` (PRESUMED, log 6), `cycleRate` (DESIGN CHOICE, log 8) and the model's own six fields (DESIGN
CHOICE, log 1, 3, 4, 5). How a program comes to run: assumption log 7. -/
def State.reset : State where
  v := Vector.replicate 16 0
  i := 0
  pc := 0x200
  stack := Vector.replicate 16 0
  sp := 0
  dt := 0
  st := 0
  fb := Vector.replicate 32 (Vector.replicate 64 false)
  mem := []
  font := Config.customaryFont
  runState := .running
  faultKind := .none
  faultOpcode := 0
  faultPc := 0
  cycleRate := Config.cycleRateAtReset
  waitKey := false
  ir := 0
  keyFeed := []
  keyDraws := 0
  rndFeed := []
  rndDraws := 0
  agenda := []
  outputs := []

end Sys2Proof.Machine
end

