-- ==== Sys2Proof/Machine/Memory.lean ====
section
/-! DEFINITION. The two stores that are not plain registers: main memory as a canonical list of cells
(`spec/20_memory.md`) and the framebuffer (`spec/20_memory.md` R66). -/

namespace Sys2Proof.Machine

/-- What an unlisted address reads as: the reset contents (`spec/10_state.md` R31, R36; `spec/20_memory.md` R51),
byte `a` of the font table below 80 and 0 from there on. -/
def Memory.unlisted (font : Font) (a : Nat) : Byte :=
  if h : a < 80 then (font[a / 5]'(by omega))[a % 5]'(Nat.mod_lt _ (by decide)) else 0

/-- Read one byte. -/
def Memory.read (font : Font) : List Host.Cell → Nat → Byte
  | [], a => Memory.unlisted font a
  | (k, b) :: rest, a => if a < k then Memory.unlisted font a else if a = k then b else Memory.read font rest a

/-- Put a byte into the list at its place, or take the entry out where the byte is what the address reads as
unlisted. -/
def Memory.insert (font : Font) : List Host.Cell → Nat → Byte → List Host.Cell
  | [], a, b => if b = Memory.unlisted font a then [] else [(a, b)]
  | (k, c) :: rest, a, b =>
    if a < k then (if b = Memory.unlisted font a then (k, c) :: rest else (a, b) :: (k, c) :: rest)
    else if a = k then (if b = Memory.unlisted font a then rest else (a, b) :: rest)
    else (k, c) :: Memory.insert font rest a b

/-- Write one byte. Every meaning checks its addresses first (R56), so the guard only keeps the list inside the 4096
bytes. -/
def Memory.write (font : Font) (m : List Host.Cell) (a : Nat) (b : Byte) : List Host.Cell :=
  if a < Config.memSize then Memory.insert font m a b else m

/-- The canonical form from address `low` up: addresses strictly rising and below 4096, no entry equal to what its
address reads as unlisted. -/
def Memory.wfFrom (font : Font) : Nat → List Host.Cell → Bool
  | _, [] => true
  | low, (a, b) :: rest =>
    decide (low ≤ a) && decide (a < Config.memSize) && (b != Memory.unlisted font a) && Memory.wfFrom font (a + 1) rest

/-- The canonical form of memory. -/
def Memory.wf (font : Font) (m : List Host.Cell) : Bool := Memory.wfFrom font 0 m

/-- Memory that holds these bytes from address `a` up and the reset contents everywhere else. -/
def Memory.image (font : Font) : Nat → List Byte → List Host.Cell
  | _, [] => []
  | a, b :: rest =>
    if b = Memory.unlisted font a then Memory.image font (a + 1) rest else (a, b) :: Memory.image font (a + 1) rest

/-- The cell of column `x`, row `y`; a coordinate off the screen names no cell and reads dark (R66). -/
def Framebuffer.lit (fb : Framebuffer) (x y : Nat) : Bool :=
  if h : x < 64 ∧ y < 32 then (fb[y]'h.2)[x]'h.1 else false

/-- Turn the cell of column `x`, row `y` over; off the screen nothing changes (R66). -/
def Framebuffer.toggle (fb : Framebuffer) (x y : Nat) : Framebuffer :=
  if h : x < 64 ∧ y < 32 then fb.set y ((fb[y]'h.2).set x (!(fb[y]'h.2)[x]'h.1) h.1) h.2 else fb

/-- All cells 0. -/
def Framebuffer.dark : Framebuffer := Vector.replicate 32 (Vector.replicate 64 false)

end Sys2Proof.Machine
end

