-- ==== Sys2Proof/Machine/Ops.lean ====
section
/-! DEFINITION. The named operations over the state that the meanings are written with: registers, bytes, the stack,
input samples, outputs, and the fatal fault entry. -/

namespace Sys2Proof.Machine

/-! ### Registers (`spec/10_state.md` R20) -/

/-- `V[x]`. -/
def State.reg (s : State) (x : Reg) : Byte := s.v[x.toNat]'x.isLt

/-- `V[x] <- b`. No register is hard-wired. -/
def State.setReg (s : State) (x : Reg) (b : Byte) : State := { s with v := s.v.set x.toNat b x.isLt }

/-- `VF`, register 15, the only flag (R21). -/
abbrev vf : Reg := 0xF

/-- `V[k] <- b₀; V[k+1] <- b₁; …`. -/
def State.setRegsFrom (s : State) : Nat → List Byte → State
  | _, [] => s
  | k, b :: rest => (s.setReg (BitVec.ofNat 4 k) b).setRegsFrom (k + 1) rest

/-- `V[0], …, V[x]`, the last one included (`spec/47_memory_bcd.md` R189). -/
def State.regsUpTo (s : State) (x : Reg) : List Byte :=
  (List.range (x.toNat + 1)).map fun k => s.reg (BitVec.ofNat 4 k)

/-! ### Memory (`spec/20_memory.md`) -/

/-- `n` bytes from address `a` lie inside memory; for `n = 0` there is nothing to check (R56). -/
def inBounds (a n : Nat) : Bool := decide (a + n ≤ Config.memSize)

/-- `MEM[a]`. -/
def State.byteAt (s : State) (a : Nat) : Byte := Memory.read s.font s.mem a

/-- `MEM[a] <- b`. -/
def State.setByte (s : State) (a : Nat) (b : Byte) : State := { s with mem := Memory.write s.font s.mem a b }

/-- `MemRead(a, n)`: lowest address first (R54). -/
def State.readBytes (s : State) (a n : Nat) : List Byte := (List.range n).map fun k => s.byteAt (a + k)

/-- `MemWrite` of a run of bytes in ascending address order (R54). -/
def State.writeBytes (s : State) : Nat → List Byte → State
  | _, [] => s
  | a, b :: rest => (s.setByte a b).writeBytes (a + 1) rest

/-! ### The call stack (`spec/10_state.md` R26, R27) -/

/-- `STACK[SP] <- r; SP <- SP + 1`, or `none` where SP = 16. -/
def State.push (s : State) (r : Word) : Option State :=
  if h : s.sp.val < 16 then some { s with stack := s.stack.set s.sp.val r h, sp := ⟨s.sp.val + 1, by omega⟩ } else none

/-- `SP <- SP - 1` and the value of `STACK[SP]`, or `none` where SP = 0. The entry keeps its value. -/
def State.pop (s : State) : Option (Word × State) :=
  if h : 0 < s.sp.val then
    some (s.stack[s.sp.val - 1]'(by omega), { s with sp := ⟨s.sp.val - 1, by omega⟩ })
  else none

/-! ### The program counter (`spec/40_control_flow.md` R100) -/

/-- `PC <- target`. -/
def State.jump (s : State) (target : Word) : State := { s with pc := target }

/-- Skip the next instruction where `c` holds: `PC <- PC + 2`. -/
def State.skipIf (s : State) (c : Bool) : State := { s with pc := if c then s.pc + 2 else s.pc }

/-- What the fetch of the word `op` does besides reading it: `PC <- PC + 2; IR <- op` (`spec/60_exceptions.md` R212). -/
def State.fetched (s : State) (op : Word) : State := { s with pc := s.pc + 2, ir := op }

/-! ### Input samples (`spec/60_exceptions.md` R232, R233) -/

/-- `key()`: the sample the key port shows now; past the host's feed it is a free value (assumption log 3). -/
def State.key (s : State) : Option Key := s.keyFeed.headD (Config.keySample s.keyDraws)

/-- The state after one key sample was taken. -/
def State.keyTaken (s : State) : State := { s with keyFeed := s.keyFeed.tail, keyDraws := s.keyDraws + 1 }

/-- `rnd()`: the byte the random port shows now; past the host's feed it is a free value (assumption log 4). -/
def State.random (s : State) : Byte := s.rndFeed.headD (Config.randomByte s.rndDraws)

/-- The state after one random byte was taken. -/
def State.randomTaken (s : State) : State := { s with rndFeed := s.rndFeed.tail, rndDraws := s.rndDraws + 1 }

/-! ### Output ports -/

/-- Emit these outputs, in this order (assumption log 5). -/
def State.emit (s : State) (os : List Output) : State := { s with outputs := s.outputs ++ os }

/-- The code a port shows for RUN_STATE (`spec/10_state.md` R32). -/
def RunState.code : RunState → BitVec 2
  | .stopped => 0
  | .running => 1
  | .paused => 2

/-- The code of a fault (`spec/60_exceptions.md` R200). -/
def FaultKind.code : FaultKind → BitVec 3
  | .none => 0
  | .unimplementedInstruction => 1
  | .stackOverflow => 2
  | .stackUnderflow => 3
  | .memoryBounds => 4
  | .oversizedRom => 5
  | .loadStateRefused => 6

/-- The status outputs `run_state`, `fault_kind`, `fault_opcode`, `fault_pc` (R236). -/
def State.statusPort (s : State) : BitVec 2 × BitVec 3 × Word × Word :=
  (s.runState.code, s.faultKind.code, s.faultOpcode, s.faultPc)

/-- Cell `p` of the framebuffer, column `p mod 64`, row `p div 64`, as a byte 0 or 1 (`spec/10_state.md` R30). -/
def State.cellByte (s : State) (p : Nat) : Byte := if Framebuffer.lit s.fb (p % 64) (p / 64) then 1 else 0

/-- The framebuffer read port `fb_index`, `fb_data` (R235). -/
def State.fbPort (s : State) (p : BitVec 11) : Byte := s.cellByte p.toNat

/-! ### Faults (`spec/60_exceptions.md` R206 to R210) -/

/-- The fatal fault entry of R206: the fault record is written, the run stops, a key wait ends, one diagnostic record
is emitted, and nothing else changes. There is no return from it but a reset (R210). -/
def State.fatalFault (s : State) (kind : FaultKind) (op addr : Word) : State :=
  { s with
    faultKind := kind, faultOpcode := op, faultPc := addr, runState := .stopped, waitKey := false
    outputs := s.outputs ++ [.diag kind op addr] }

/-- `raise kind(op, addr)` inside the execution of `i`. The fetch has moved PC to `addr + 2`, so `addr` is `PC - 2`;
`op` is the word of `i` (assumption log 18). -/
def State.raiseIn (s : State) (i : Instr) (kind : FaultKind) : State := s.fatalFault kind (encode i) (s.pc - 2)

end Sys2Proof.Machine
end

