-- ==== Sys2Proof/Machine/Commands.lean ====
section
/-! DEFINITION. The host commands: run-state machine, reset, snapshot (`spec/60_exceptions.md` R213 to R217, R240 to
R245; `spec/70_reset_and_hazards.md` R260 to R265). -/

namespace Sys2Proof.Machine

/-! ### Run state -/

/-- pause (R214): no effect but in Running (R213). -/
def State.pause (s : State) : State := { s with runState := if s.runState = .running then .paused else s.runState }

/-- unpause (R215): no effect but in Paused (R213). -/
def State.unpause (s : State) : State := { s with runState := if s.runState = .paused then .running else s.runState }

/-- The effect of stop (R216): Stopped, and a pending key wait is abandoned. WAITKEY and IR are both cleared
(`spec/10_state.md` R35); all other state, the state the ports show, is kept (assumption log 9). -/
def State.halted (s : State) : State := { s with runState := .stopped, waitKey := false, ir := 0 }

/-- stop (R216): no effect in Stopped (R213). -/
def State.stop (s : State) : State := if s.runState = .stopped then s else s.halted

/-! ### Reset -/

/-- What an accepted reset leaves (R261): the order of its assignments is not observable. CYCLE_RATE is not touched,
no tone signal is emitted (R265), the font constant is what unlisted memory reads as. -/
def State.reinitialised (s : State) (rom : List Byte) : State :=
  { s with
    v := Vector.replicate 16 0, i := 0, pc := BitVec.ofNat 16 Config.romBase
    stack := Vector.replicate 16 0, sp := 0, dt := 0, st := 0, fb := Framebuffer.dark
    mem := Memory.image s.font Config.romBase rom
    runState := .running, faultKind := .none, faultOpcode := 0, faultPc := 0, waitKey := false, ir := 0 }

/-- A 16-bit length, saturated (R207). -/
def saturate16 (n : Nat) : Word := BitVec.ofNat 16 (min n 0xFFFF)

/-- The reset command (R260): the length check comes first, and a rejected reset changes nothing (R205). -/
def State.resetCommand (s : State) (rom : List Byte) : State :=
  if rom.length ≤ Config.romMax then s.reinitialised rom
  else s.emit [.diag .oversizedRom (saturate16 rom.length) 0]

/-! ### Snapshot -/

/-- The bytes `f 0, …, f (n - 1)`. -/
@[irreducible] def tabulate (n : Nat) (f : Nat → Byte) : List Byte := (List.range n).map f

/-- The fields save-state reads, in the order of R243. -/
def State.snapshot (s : State) : Snapshot where
  mem := tabulate Config.memSize s.byteAt
  pc := s.pc
  v := s.v.toList
  i := s.i.toNat
  stack := s.stack.toList
  sp := s.sp.val
  dt := s.dt
  st := s.st
  fb := tabulate 2048 s.cellByte

/-- The fields are ones a run can produce (R245): right lengths, SP at most 16, I at most 0xFFF, every cell 0 or 1.
PC, stack entries, registers, timers and memory are accepted at any value. -/
def Snapshot.accepted (f : Snapshot) : Bool :=
  f.mem.length == Config.memSize && f.v.length == 16 && f.stack.length == 16 && f.fb.length == 2048 &&
    decide (f.sp ≤ 16) && decide (f.i ≤ 0xFFF) && f.fb.all fun b => b == 0 || b == 1

/-- The first `n` elements of a list as a vector. -/
@[irreducible] def vectorOf {α : Type} (n : Nat) (default : α) (l : List α) : Vector α n :=
  Vector.ofFn fun k => l.getD k.val default

/-- The framebuffer of 2048 cell bytes, row by row (`spec/10_state.md` R30). -/
@[irreducible] def screenOf (l : List Byte) : Framebuffer :=
  Vector.ofFn fun y => Vector.ofFn fun x => l.getD (y.val * 64 + x.val) 0 == 1

/-- Overwrite every field of R243 (R241). WAITKEY is cleared (R241) and IR with it (R35; assumption log 9); RUN_STATE,
the fault record and CYCLE_RATE stay; no tone signal. -/
def State.restored (s : State) (f : Snapshot) : State :=
  { s with
    mem := Memory.image s.font 0 f.mem
    pc := f.pc
    v := vectorOf 16 0 f.v
    i := BitVec.ofNat 12 f.i
    stack := vectorOf 16 0 f.stack
    sp := Fin.ofNat 17 f.sp
    dt := f.dt
    st := f.st
    fb := screenOf f.fb
    waitKey := false
    ir := 0 }

/-- load-state (R242, R245): refused with one diagnostic and no other change while Running or with fields no run can
produce. -/
def State.loadCommand (s : State) (f : Snapshot) : State :=
  if s.runState ≠ .running ∧ f.accepted = true then s.restored f else s.emit [.diag .loadStateRefused 0 0]

/-! ### The command port -/

/-- One host command (R231). save-state changes nothing but hands its fields out (R240). -/
def State.command (s : State) : Command → State
  | .reset rom => s.resetCommand rom
  | .pause => s.pause
  | .unpause => s.unpause
  | .stop => s.stop
  | .saveState => s.emit [.snapshot s.snapshot]
  | .loadState f => s.loadCommand f

end Sys2Proof.Machine
end

