-- ==== Sys2Proof/Machine/Flags.lean ====
section
/-! DEFINITION. Every flag the spec computes (`spec/10_state.md` R21; `spec/41_register_ops.md` R127 to R132), and the
order of the two writes of a flag-writing instruction. -/

namespace Sys2Proof.Machine

/-- A flag as the full byte 0 or 1 (R21). -/
def flagByte (c : Bool) : Byte := if c then 1 else 0

/-- Carry out: the exact sum exceeds 255 (R127). -/
def carry (a b : Byte) : Bool := decide (a.toNat + b.toNat > 255)

/-- No borrow in `a - b`: `a ≥ b` (R128, R130). -/
def noBorrow (a b : Byte) : Bool := decide (a.toNat ≥ b.toNat)

/-- The bit a right shift moves out, bit 0 (R129). -/
def shiftedOutRight (a : Byte) : Bool := a.getLsbD 0

/-- The bit a left shift moves out, bit 7 (R131). -/
def shiftedOutLeft (a : Byte) : Bool := a.getLsbD 7

/-- `V[X] <- result` first, `VF <- flag` second, so that with X = 15 the flag is what remains (R120). -/
def State.setRegAndFlag (s : State) (x : Reg) (result : Byte) (flag : Bool) : State :=
  (s.setReg x result).setReg vf (flagByte flag)

end Sys2Proof.Machine
end

