-- ==== Sys2Proof/Machine/Operands.lean ====
section
/-! DEFINITION. The operands an instruction computes from its fields and registers (`spec/30_encoding.md` R72). -/

namespace Sys2Proof.Machine

/-- `zext_16(NNN)`, the target of `1NNN` and `2NNN` (`spec/40_control_flow.md` R101, R102). -/
def jumpTarget (nnn : Addr) : Word := nnn.setWidth 16

/-- `zext_16(NNN) + zext_16(V0)`, the target of `BNNN`; the sum cannot pass 16 bits (R108). -/
def offsetTarget (nnn : Addr) (offset : Byte) : Word := nnn.setWidth 16 + offset.setWidth 16

/-- `(I + zext_12(VX)) mod 4096` (`spec/42_index_ops.md` R141). -/
def indexSum (i : Addr) (b : Byte) : Addr := i + b.setWidth 12

/-- The address of the glyph of the low nibble, `(g * 5) mod 256` (`spec/47_memory_bcd.md` R185). -/
def glyphAddress (b : Byte) : Addr := BitVec.ofNat 12 ((b &&& 0x0F).toNat * 5 % 256)

/-- Hundreds, tens, ones (R186). -/
def decimalDigits (b : Byte) : List Byte :=
  [BitVec.ofNat 8 (b.toNat / 100), BitVec.ofNat 8 (b.toNat / 10 % 10), BitVec.ofNat 8 (b.toNat % 10)]

/-- `zext_8` of a key code (`spec/45_keypad.md` R166). -/
def keyByte (k : Key) : Byte := k.setWidth 8

/-- The sample shows a key whose code is all 8 bits of `b`; with no key down nothing matches (R166). -/
def keyMatches (k : Option Key) (b : Byte) : Bool :=
  match k with
  | some c => keyByte c == b
  | none => false

/-- Column of the sprite's left edge (`spec/44_sprite_draw.md` R155). -/
def spriteColumn (b : Byte) : Nat := b.toNat % 64

/-- Row of the sprite's top edge (R155). -/
def spriteRow (b : Byte) : Nat := b.toNat % 32

/-- The rows of the sprite that fall on the screen (R155, R156). -/
def spriteRows (n : Nibble) (y0 : Nat) : Nat := min n.toNat (32 - y0)

end Sys2Proof.Machine
end

