-- ==== Sys2Proof/Machine/ControlFlow.lean ====
section
/-! DEFINITION. Control-flow instructions (`spec/40_control_flow.md` R100 to R109). Every meaning of the model starts
from the state the fetch has left: PC is already the address of the next instruction (R100). -/

namespace Sys2Proof.Machine

/-- `1NNN` (R101). -/
def execJp (nnn : Addr) (s : State) : Host.Outcome State Fault Refusal := .next (s.jump (jumpTarget nnn))

/-- `2NNN` (R102): the pushed value is the address after the call. -/
def execCall (nnn : Addr) (s : State) : Host.Outcome State Fault Refusal :=
  match s.push s.pc with
  | some t => .next (t.jump (jumpTarget nnn))
  | none => .next (s.raiseIn (.call nnn) .stackOverflow)

/-- `00EE` (R103). -/
def execRet (ignored : Nibble) (s : State) : Host.Outcome State Fault Refusal :=
  match s.pop with
  | some (r, t) => .next (t.jump r)
  | none => .next (s.raiseIn (.ret ignored) .stackUnderflow)

/-- `3XNN` (R104). -/
def execSeImm (x : Reg) (nn : Byte) (s : State) : Host.Outcome State Fault Refusal :=
  .next (s.skipIf (s.reg x == nn))

/-- `4XNN` (R105). -/
def execSneImm (x : Reg) (nn : Byte) (s : State) : Host.Outcome State Fault Refusal :=
  .next (s.skipIf (s.reg x != nn))

/-- `5XY0` (R106); the low nibble is ignored (`spec/30_encoding.md` R79). -/
def execSeReg (x y : Reg) (s : State) : Host.Outcome State Fault Refusal :=
  .next (s.skipIf (s.reg x == s.reg y))

/-- `9XY0` (R107); the low nibble is ignored (`spec/30_encoding.md` R79). -/
def execSneReg (x y : Reg) (s : State) : Host.Outcome State Fault Refusal :=
  .next (s.skipIf (s.reg x != s.reg y))

/-- `BNNN` (R108). -/
def execJpV0 (nnn : Addr) (s : State) : Host.Outcome State Fault Refusal :=
  .next (s.jump (offsetTarget nnn (s.reg 0)))

end Sys2Proof.Machine
end

