-- ==== Sys2Proof/Machine/IndexOps.lean ====
section
/-! DEFINITION. Index-register operations (`spec/42_index_ops.md` R140, R141). -/

namespace Sys2Proof.Machine

/-- `I <- a`. -/
def State.setIndex (s : State) (a : Addr) : State := { s with i := a }

/-- `ANNN` (R140). -/
def execLdI (nnn : Addr) (s : State) : Host.Outcome State Fault Refusal := .next (s.setIndex nnn)

/-- `FX1E` (R141): mod 4096, no flag. -/
def execAddI (x : Reg) (s : State) : Host.Outcome State Fault Refusal := .next (s.setIndex (indexSum s.i (s.reg x)))

end Sys2Proof.Machine
end

