-- ==== Sys2Proof/Machine/Keypad.lean ====
section
/-! DEFINITION. Keypad instructions and the key wait (`spec/45_keypad.md` R165 to R169). -/

namespace Sys2Proof.Machine

/-- `EX9E` (R166). -/
def execSkp (x : Reg) (s : State) : Host.Outcome State Fault Refusal :=
  .next (s.keyTaken.skipIf (keyMatches s.key (s.reg x)))

/-- `EXA1` (R167): the exact complement of `EX9E` on the same sample. -/
def execSknp (x : Reg) (s : State) : Host.Outcome State Fault Refusal :=
  .next (s.keyTaken.skipIf (!keyMatches s.key (s.reg x)))

/-- `IR <- op; WAITKEY <- 1` (R168). -/
def State.enterWait (s : State) (op : Word) : State := { s with ir := op, waitKey := true }

/-- `V[x] <- zext_8(k); WAITKEY <- 0` (R169). -/
def State.endWait (s : State) (x : Reg) (k : Key) : State := { s.setReg x (keyByte k) with waitKey := false }

/-- `FX0A` (R168): complete at once where the sample shows a key, else enter the wait. -/
def execLdVxK (x : Reg) (s : State) : Host.Outcome State Fault Refusal :=
  .next (match s.key with
    | some k => s.keyTaken.setReg x (keyByte k)
    | none => s.keyTaken.enterWait (encode (.ldVxK x)))

/-- One poll of a key wait (R169): PC is not advanced; the register is the X field of IR. -/
def State.poll (s : State) : State :=
  match s.key with
  | some k => s.keyTaken.endWait (opX s.ir) k
  | none => s.keyTaken

end Sys2Proof.Machine
end

