-- ==== Sys2Proof/Machine/MemoryBcd.lean ====
section
/-! DEFINITION. Memory and BCD instructions (`spec/47_memory_bcd.md` R185 to R189). The bounds are checked before any
change, so a faulting instruction has no partial effect (`spec/20_memory.md` R56). -/

namespace Sys2Proof.Machine

/-- `FX29` (R185): the address is computed, not looked up. -/
def execLdF (x : Reg) (s : State) : Host.Outcome State Fault Refusal := .next (s.setIndex (glyphAddress (s.reg x)))

/-- `FX33` (R186). -/
def execLdB (x : Reg) (s : State) : Host.Outcome State Fault Refusal :=
  if inBounds s.i.toNat 3 = true then .next (s.writeBytes s.i.toNat (decimalDigits (s.reg x)))
  else .next (s.raiseIn (.ldB x) .memoryBounds)

/-- `FX55` (R187): X + 1 registers; I is unchanged. -/
def execStoreRegs (x : Reg) (s : State) : Host.Outcome State Fault Refusal :=
  if inBounds s.i.toNat (x.toNat + 1) = true then .next (s.writeBytes s.i.toNat (s.regsUpTo x))
  else .next (s.raiseIn (.storeRegs x) .memoryBounds)

/-- `FX65` (R188): X + 1 registers; I is unchanged. -/
def execLoadRegs (x : Reg) (s : State) : Host.Outcome State Fault Refusal :=
  if inBounds s.i.toNat (x.toNat + 1) = true then .next (s.setRegsFrom 0 (s.readBytes s.i.toNat (x.toNat + 1)))
  else .next (s.raiseIn (.loadRegs x) .memoryBounds)

end Sys2Proof.Machine
end

