-- ==== Sys2Proof/Machine/Random.lean ====
section
/-! DEFINITION. The random instruction (`spec/43_random.md` R150). -/

namespace Sys2Proof.Machine

/-- `CXNN` (R150): a fresh draw at every execution, under no law (assumption log 4). -/
def execRnd (x : Reg) (nn : Byte) (s : State) : Host.Outcome State Fault Refusal :=
  .next (s.randomTaken.setReg x (s.random &&& nn))

end Sys2Proof.Machine
end

