-- ==== Sys2Proof/Machine/Screen.lean ====
section
/-! DEFINITION. The screen clear (`spec/48_screen_clear.md` R198). -/

namespace Sys2Proof.Machine

/-- `00E0` (R198): VF is not written. -/
def execCls (s : State) : Host.Outcome State Fault Refusal := .next { s with fb := Framebuffer.dark }

end Sys2Proof.Machine
end

