-- ==== Sys2Proof/Machine/Sprite.lean ====
section
/-! DEFINITION. The sprite draw (`spec/44_sprite_draw.md` R155 to R158). -/

namespace Sys2Proof.Machine

/-- One sprite bit at column `x`, row `y`: a 1 bit on the screen turns the cell over and is a hit where the cell was
1; a column from 64 up is skipped (R155, R156). The pair is the framebuffer and `hit`. -/
def drawCell (x y : Nat) (bit : Bool) (acc : Framebuffer × Bool) : Framebuffer × Bool :=
  if x ≤ 63 ∧ bit = true then (Framebuffer.toggle acc.1 x y, acc.2 || Framebuffer.lit acc.1 x y) else acc

/-- One sprite byte, left to right; bit 7 is the leftmost column (R157; assumption log 11). -/
def drawRow (x0 y : Nat) (b : Byte) (acc : Framebuffer × Bool) : Framebuffer × Bool :=
  (List.range 8).foldl (fun acc c => drawCell (x0 + c) y (b.getLsbD (7 - c)) acc) acc

/-- The sprite's rows from row `y` of the screen down (R155). -/
def drawRows (x0 : Nat) : Nat → List Byte → Framebuffer × Bool → Framebuffer × Bool
  | _, [], acc => acc
  | y, b :: rest, acc => drawRows x0 (y + 1) rest (drawRow x0 y b acc)

/-- Put a drawn framebuffer in place and write VF last (R155). -/
def State.drawn (s : State) (r : Framebuffer × Bool) : State := { s with fb := r.1 }.setReg vf (flagByte r.2)

/-- `DXYN` (R155): the coordinates are read before VF is written, the bounds are checked before anything changes. -/
def execDrw (x y : Reg) (n : Nibble) (s : State) : Host.Outcome State Fault Refusal :=
  let x0 := spriteColumn (s.reg x)
  let y0 := spriteRow (s.reg y)
  let rows := spriteRows n y0
  if inBounds s.i.toNat rows = true then
    .next (s.drawn (drawRows x0 y0 (s.readBytes s.i.toNat rows) (s.fb, false)))
  else .next (s.raiseIn (.drw x y n) .memoryBounds)

end Sys2Proof.Machine
end

