-- ==== Sys2Proof/Machine/Timers.lean ====
section
/-! DEFINITION. Timer instructions (`spec/46_timers.md` R175 to R177) and the timer tick (`spec/60_exceptions.md`
R220 to R222). -/

namespace Sys2Proof.Machine

/-- `FX07` (R175). -/
def execLdVxDt (x : Reg) (s : State) : Host.Outcome State Fault Refusal := .next (s.setReg x s.dt)

/-- `FX15` (R176). -/
def execLdDtVx (x : Reg) (s : State) : Host.Outcome State Fault Refusal := .next { s with dt := s.reg x }

/-- `FX18` (R177): a nonzero value pulses `tone_start`, every time; zero pulses nothing. -/
def execLdStVx (x : Reg) (s : State) : Host.Outcome State Fault Refusal :=
  .next ({ s with st := s.reg x }.emit (if s.reg x ≠ 0 then [.toneStart] else []))

/-- Count a timer down to 0 and no further (R220). -/
def countDown (t : Byte) : Byte := if t = 0 then 0 else t - 1

/-- One timer tick (R220): `tone_stop` exactly where this tick takes ST from 1 to 0. -/
def State.tick (s : State) : State :=
  { s with dt := countDown s.dt, st := countDown s.st }.emit (if s.st = 1 then [.toneStop] else [])

end Sys2Proof.Machine
end

