-- ==== Sys2Proof/Machine/Cycle.lean ====
section
/-! DEFINITION. The instruction step and the other events (`spec/60_exceptions.md` R212 to R221). -/

namespace Sys2Proof.Machine

/-- The word at PC, high byte first, or `none` where PC > 0xFFE (`spec/20_memory.md` R53, R56). -/
def State.fetchWord (s : State) : Option Word :=
  if inBounds s.pc.toNat 2 = true then some (wordOfBytes (s.byteAt s.pc.toNat) (s.byteAt (s.pc.toNat + 1))) else none

/-- The fetch fault (R204): FAULT_OPCODE is 0, PC stays. -/
def State.fetchFault (s : State) : State := s.fatalFault .memoryBounds 0 s.pc

/-- A word that is none of the 34, fetched from `addr` (`spec/49_unimplemented.md` R199): one diagnostic record; PC has
already moved past it and the run continues. -/
def State.unimplemented (s : State) (op addr : Word) : State := s.emit [.diag .unimplementedInstruction op addr]

/-- Fetch, decode, execute (R212). -/
def cycle (s : State) : Host.Outcome State Fault Refusal :=
  match s.fetchWord with
  | none => .next s.fetchFault
  | some op =>
    match decodeWord op with
    | .ok i => exec i (s.fetched op)
    | .error _ => .next ((s.fetched op).unimplemented op s.pc)

/-- The instruction step (R212). It is enabled only in Running: in Paused the interpreter idles and in Stopped no step
begins, so there it changes nothing (assumption log 2). In a key wait it is one poll. -/
def instructionStep (s : State) : Host.Outcome State Fault Refusal :=
  if s.runState = .running then (if s.waitKey = true then .next s.poll else cycle s) else .next s

/-- The tick, enabled only in Running (R221; assumption log 2). -/
def State.tickIfRunning (s : State) : State := if s.runState = .running then s.tick else s

/-- What the host saw of the framebuffer inside a step from `s` to `t` (`spec/44_sprite_draw.md` R158). -/
def tornOutputs (s t : State) (reads : List TornRead) : List Output :=
  reads.map fun r => .cell r.index (if r.after then t.fbPort r.index else s.fbPort r.index)

/-- Change the next state of an outcome. -/
def mapNext (f : State → State) : Host.Outcome State Fault Refusal → Host.Outcome State Fault Refusal
  | .next s => .next (f s)
  | .fault r => .fault r
  | .refused r => .refused r

/-- One event (R11, R218). -/
def perform (s : State) : Event → Host.Outcome State Fault Refusal
  | .step => instructionStep s
  | .tornStep reads => mapNext (fun t => t.emit (tornOutputs s t reads)) (instructionStep s)
  | .tick => .next s.tickIfRunning
  | .command c => .next (s.command c)
  | .setCycleRate rate => .next { s with cycleRate := rate }
  | .readCell index => .next (s.emit [.cell index (s.fbPort index)])

/-- The event that is due: the head of the agenda, or an instruction step where the agenda is empty (assumption log
1). -/
def State.due (s : State) : Event := s.agenda.headD .step

/-- The state as the due event finds it: the event is off the agenda. -/
def State.begun (s : State) : State := { s with agenda := s.agenda.tail }

/-- Where the word of `withFetchWord` goes: PC, or 0x200 where nothing can be fetched from PC. -/
def State.fetchAddress (s : State) : Word := if inBounds s.pc.toNat 2 = true then s.pc else BitVec.ofNat 16 Config.romBase

/-- The state with the word `w` at the place the next fetch reads, and an instruction step due: Running, no key wait,
nothing else on the agenda, PC where a fetch is possible. -/
def State.primed (s : State) (w : Word) : State :=
  { s.writeBytes s.fetchAddress.toNat (bytesOfWord w) with
    pc := s.fetchAddress, runState := .running, waitKey := false, agenda := [] }

end Sys2Proof.Machine
end

