-- ==== Sys2Proof/Machine/Step.lean ====
section
/-! DEFINITION. The step of the machine: the due event, performed. -/

namespace Sys2Proof.Machine

/-- One step: the event the agenda says is due (`spec/60_exceptions.md` R218; assumption log 1). -/
def step (s : State) : Host.Outcome State Fault Refusal := perform s.begun s.due

/-- The state whose very next step fetches and runs the table word `(nbits, w)` (assumption log 7). -/
def State.withFetchWord (s : State) (nbits w : Nat) : State := s.primed (tableWord nbits w)

end Sys2Proof.Machine
end

