-- ==== Sys2Proof/Safety.lean ====
section
/-! DEFINITION. The terms claims are stated in: what two states share, the invariants of the machine, faulted,
finished and powered-on states. -/

namespace Sys2Proof.Machine

/-- The parts of the state a frame speaks of. -/
inductive Part where
  | registers | index | pc | stackEntries | sp | delayTimer | soundTimer | screen | memory | font
  | runState | faultRecord | cycleRate | keyWait | ir | keyInput | randomInput | agenda | outputs
  deriving DecidableEq, Repr

/-- The part is the same in both states; memory is compared through the read of one byte, at every address. -/
def Part.same (s t : State) : Part → Prop
  | .registers => ∀ r, t.reg r = s.reg r
  | .index => t.i = s.i
  | .pc => t.pc = s.pc
  | .stackEntries => t.stack = s.stack
  | .sp => t.sp = s.sp
  | .delayTimer => t.dt = s.dt
  | .soundTimer => t.st = s.st
  | .screen => t.fb = s.fb
  | .memory => ∀ a, t.byteAt a = s.byteAt a
  | .font => t.font = s.font
  | .runState => t.runState = s.runState
  | .faultRecord => t.faultKind = s.faultKind ∧ t.faultOpcode = s.faultOpcode ∧ t.faultPc = s.faultPc
  | .cycleRate => t.cycleRate = s.cycleRate
  | .keyWait => t.waitKey = s.waitKey
  | .ir => t.ir = s.ir
  | .keyInput => t.keyFeed = s.keyFeed ∧ t.keyDraws = s.keyDraws
  | .randomInput => t.rndFeed = s.rndFeed ∧ t.rndDraws = s.rndDraws
  | .agenda => t.agenda = s.agenda
  | .outputs => t.outputs = s.outputs

/-- `t` agrees with `s` in every part that is not in the list: the frame of an operation that writes at most those. -/
def SameExcept (written : List Part) (s t : State) : Prop := ∀ p, p ∉ written → p.same s t

/-- The registers other than these are the same. -/
def SameRegsBut (rs : List Reg) (s t : State) : Prop := ∀ r, r ∉ rs → t.reg r = s.reg r

/-- The bytes of memory outside the `n` bytes from address `a` are the same. -/
def SameBytesOutside (a n : Nat) (s t : State) : Prop := ∀ k, k < a ∨ a + n ≤ k → t.byteAt k = s.byteAt k

/-- What every event keeps (`spec/10_state.md` R42; SP ≤ 16, I ≤ 0xFFF and 0/1 cells hold by their types): memory is in
canonical form; in a key wait IR is a word of `FX0A` and the machine is not Stopped; a machine with a fault on record
is Stopped. -/
structure State.Inv (s : State) : Prop where
  memory : Memory.wf s.font s.mem = true
  waitWord : s.waitKey = true → opTop s.ir = 0xF ∧ opNN s.ir = 0x0A
  waitAlive : s.waitKey = true → s.runState ≠ .stopped
  faulted : s.faultKind ≠ .none → s.runState = .stopped

/-- No load-state is coming. -/
def State.noLoadComing (s : State) : Prop := ∀ f, Event.command (.loadState f) ∉ s.agenda

/-- The ranges of R42 that hold of runs without a load-state: PC ≤ 0x10FE and every live stack entry between 2 and
0x1000. -/
structure State.InRange (s : State) : Prop where
  pc : s.pc.toNat ≤ 0x10FE
  live : ∀ k (h : k < 16), k < s.sp.val → 2 ≤ (s.stack[k]'h).toNat ∧ (s.stack[k]'h).toNat ≤ 0x1000
  noLoad : s.noLoadComing

/-- The sprite's bit that falls on column `x`, row `y` of an unclipped screen when its top left corner is at `(x0, y0)`
and its rows are these bytes: bit 7 of a byte is its leftmost column (`spec/44_sprite_draw.md` R155 to R157). -/
def spriteBit (x0 y0 : Nat) (rows : List Byte) (x y : Nat) : Bool :=
  decide (y0 ≤ y) && decide (x0 ≤ x) && decide (x < x0 + 8) && ((rows[y - y0]?).getD 0).getLsbD (7 - (x - x0))

/-- The pixel of the sprite `DXYN` draws in state `s` on column `col`, row `row`, clipping apart: bit 7 of the byte at
`I + r` is the leftmost cell of row `r`, and the corner is `(VX mod 64, VY mod 32)` (R155 to R157). -/
def State.spritePixel (s : State) (x y : Reg) (n : Nibble) (col row : Nat) : Bool :=
  let x0 := (s.reg x).toNat % 64
  let y0 := (s.reg y).toNat % 32
  decide (y0 ≤ row ∧ row < y0 + n.toNat ∧ x0 ≤ col ∧ col < x0 + 8) &&
    (s.byteAt (s.i.toNat + (row - y0))).getLsbD (7 - (col - x0))

/-- How many rows of the sprite fall on the screen (R155). -/
def State.rowsOnScreen (s : State) (y : Reg) (n : Nibble) : Nat := min n.toNat (32 - (s.reg y).toNat % 32)

/-- The unimplemented space, clause by clause (`spec/30_encoding.md` R80). -/
def inUnimplementedSpace (w : Word) : Prop :=
  (w.extractLsb' 12 4 = 0x0#4 ∧ w.extractLsb' 0 8 ∉ [0xE0#8, 0xEE#8]) ∨
    (w.extractLsb' 12 4 = 0x8#4 ∧ w.extractLsb' 0 4 ∈ [0x8#4, 0x9#4, 0xA#4, 0xB#4, 0xC#4, 0xD#4, 0xF#4]) ∨
    (w.extractLsb' 12 4 = 0xE#4 ∧ w.extractLsb' 0 8 ∉ [0x9E#8, 0xA1#8]) ∨
    (w.extractLsb' 12 4 = 0xF#4 ∧
      w.extractLsb' 0 8 ∉ [0x07#8, 0x0A#8, 0x15#8, 0x18#8, 0x1E#8, 0x29#8, 0x33#8, 0x55#8, 0x65#8])

/-- The registers an instruction names as its destinations (files 40 to 48 of `spec/`): VX, or V0 to VX for `FX65`. -/
def destinations : Instr → List Reg
  | .ldImm x _ | .addImm x _ | .ldReg x _ | .orReg x _ | .andReg x _ | .xorReg x _ => [x]
  | .addReg x _ | .subReg x _ | .shr x _ | .subnReg x _ | .shl x _ => [x]
  | .rnd x _ | .ldVxDt x | .ldVxK x => [x]
  | .loadRegs x => (List.range (x.toNat + 1)).map (BitVec.ofNat 4)
  | .cls _ | .ret _ | .jp _ | .call _ | .seImm _ _ | .sneImm _ _ | .seReg _ _ _ | .sneReg _ _ _ => []
  | .ldI _ | .jpV0 _ | .drw _ _ _ | .skp _ | .sknp _ | .ldDtVx _ | .ldStVx _ | .addI _ | .ldF _ | .ldB _ => []
  | .storeRegs _ => []

/-- The six instructions that write VF as a flag (`spec/10_state.md` R21). -/
def writesFlag : Instr → Bool
  | .addReg _ _ | .subReg _ _ | .shr _ _ | .subnReg _ _ | .shl _ _ | .drw _ _ _ => true
  | .cls _ | .ret _ | .jp _ | .call _ | .seImm _ _ | .sneImm _ _ | .seReg _ _ _ | .sneReg _ _ _ => false
  | .ldImm _ _ | .addImm _ _ | .ldReg _ _ | .orReg _ _ | .andReg _ _ | .xorReg _ _ | .ldI _ | .jpV0 _ => false
  | .rnd _ _ | .skp _ | .sknp _ | .ldVxDt _ | .ldVxK _ | .ldDtVx _ | .ldStVx _ | .addI _ | .ldF _ | .ldB _ => false
  | .storeRegs _ | .loadRegs _ => false

/-- `t` is what the fatal fault entry makes of `s` (`spec/60_exceptions.md` R206): the fault record, Stopped, no key
wait, one diagnostic record, and nothing else. -/
def FatalEntry (kind : FaultKind) (op addr : Word) (s t : State) : Prop :=
  t.faultKind = kind ∧ t.faultOpcode = op ∧ t.faultPc = addr ∧ t.runState = .stopped ∧ t.waitKey = false ∧
    t.outputs = s.outputs ++ [.diag kind op addr] ∧ SameExcept [.faultRecord, .runState, .keyWait, .outputs] s t

/-- Where PC is above 0xFFE the next fetch raises MemoryBounds with opcode 0 (`spec/60_exceptions.md` R204). -/
def NextFetchIsChecked (t : State) : Prop :=
  0xFFE < t.pc.toNat → t.runState = .running → t.waitKey = false → t.due = .step →
    ∃ u, step t = .next u ∧ FatalEntry .memoryBounds 0 t.pc { t with agenda := t.agenda.tail } u

/-- A fault is on record: never the final state of a successful run (`spec/60_exceptions.md` R206). -/
def State.faultRecorded (s : State) : Prop := s.faultKind ≠ .none

/-- The end of a program by convention (`spec/70_reset_and_hazards.md` R283): PC holds the address of a `1NNN` whose
NNN is that address, and no key wait is on. The machine does not stop there. -/
def State.finished (s : State) : Prop :=
  ∃ nnn : Addr, s.fetchWord = some (encode (.jp nnn)) ∧ s.pc = jumpTarget nnn ∧ s.waitKey = false

/-- A state of the block before its first reset (`spec/10_state.md` R40): everything but these three is unspecified, so
any state with them may be the one after power-on (assumption log 16). -/
def State.poweredOn (s : State) : Prop := s.runState = .stopped ∧ s.faultKind = .none ∧ s.waitKey = false

/-- An instruction step is due and enabled, and it will be a fetch: Running, no key wait, and the next event is a
step. -/
def State.ready (s : State) : Prop := s.runState = .running ∧ s.waitKey = false ∧ s.due = .step

end Sys2Proof.Machine
end

