-- ==== Sys2Proof/Certificates/Slice0/Obligations.lean ====
section
/-! DEFINITION. The statements for the provers. Each says which part of `spec/` it formalises; what rests on a choice of
the model names its assumption log entry. -/

open Sys2Proof Sys2Proof.Machine

/-- Decoding the bytes of an encoded instruction gives that instruction back (30_encoding.md section 2 (decoding) and
section 1 (formats), 20_memory.md section 2 (byte order)). -/
def Obligations.DecodeOfEncodeIsIdentity : Prop :=
  ∀ (i : Instr) (rest : List Byte), decode (encodeBytes i ++ rest) = .ok (i, rest)

/-- Encoding the instruction a word decodes to gives the word back (30_encoding.md section 2 (decoding) and section 3
(bits not examined)). -/
def Obligations.EncodeOfDecodeIsIdentity : Prop :=
  ∀ (w : Word) (i : Instr), decodeWord w = .ok i → encode i = w

/-- Every row of the opcode table decides: a word that matches it decodes to its instruction with the row's fields
(30_encoding.md section 2 (tables of the decoder), opcode_table.json). -/
def Obligations.DecoderFollowsOpcodeTable : Prop :=
  ∀ w : Word,
    (w &&& 0xF0FF#16 = 0x00E0#16 → decodeWord w = .ok (.cls (w.extractLsb' 8 4))) ∧
    (w &&& 0xF0FF#16 = 0x00EE#16 → decodeWord w = .ok (.ret (w.extractLsb' 8 4))) ∧
    (w &&& 0xF000#16 = 0x1000#16 → decodeWord w = .ok (.jp (w.extractLsb' 0 12))) ∧
    (w &&& 0xF000#16 = 0x2000#16 → decodeWord w = .ok (.call (w.extractLsb' 0 12))) ∧
    (w &&& 0xF000#16 = 0x3000#16 → decodeWord w = .ok (.seImm (w.extractLsb' 8 4) (w.extractLsb' 0 8))) ∧
    (w &&& 0xF000#16 = 0x4000#16 → decodeWord w = .ok (.sneImm (w.extractLsb' 8 4) (w.extractLsb' 0 8))) ∧
    (w &&& 0xF000#16 = 0x5000#16 → decodeWord w = .ok (.seReg (w.extractLsb' 8 4) (w.extractLsb' 4 4) (w.extractLsb' 0 4))) ∧
    (w &&& 0xF000#16 = 0x6000#16 → decodeWord w = .ok (.ldImm (w.extractLsb' 8 4) (w.extractLsb' 0 8))) ∧
    (w &&& 0xF000#16 = 0x7000#16 → decodeWord w = .ok (.addImm (w.extractLsb' 8 4) (w.extractLsb' 0 8))) ∧
    (w &&& 0xF00F#16 = 0x8000#16 → decodeWord w = .ok (.ldReg (w.extractLsb' 8 4) (w.extractLsb' 4 4))) ∧
    (w &&& 0xF00F#16 = 0x8001#16 → decodeWord w = .ok (.orReg (w.extractLsb' 8 4) (w.extractLsb' 4 4))) ∧
    (w &&& 0xF00F#16 = 0x8002#16 → decodeWord w = .ok (.andReg (w.extractLsb' 8 4) (w.extractLsb' 4 4))) ∧
    (w &&& 0xF00F#16 = 0x8003#16 → decodeWord w = .ok (.xorReg (w.extractLsb' 8 4) (w.extractLsb' 4 4))) ∧
    (w &&& 0xF00F#16 = 0x8004#16 → decodeWord w = .ok (.addReg (w.extractLsb' 8 4) (w.extractLsb' 4 4))) ∧
    (w &&& 0xF00F#16 = 0x8005#16 → decodeWord w = .ok (.subReg (w.extractLsb' 8 4) (w.extractLsb' 4 4))) ∧
    (w &&& 0xF00F#16 = 0x8006#16 → decodeWord w = .ok (.shr (w.extractLsb' 8 4) (w.extractLsb' 4 4))) ∧
    (w &&& 0xF00F#16 = 0x8007#16 → decodeWord w = .ok (.subnReg (w.extractLsb' 8 4) (w.extractLsb' 4 4))) ∧
    (w &&& 0xF00F#16 = 0x800E#16 → decodeWord w = .ok (.shl (w.extractLsb' 8 4) (w.extractLsb' 4 4))) ∧
    (w &&& 0xF000#16 = 0x9000#16 → decodeWord w = .ok (.sneReg (w.extractLsb' 8 4) (w.extractLsb' 4 4) (w.extractLsb' 0 4))) ∧
    (w &&& 0xF000#16 = 0xA000#16 → decodeWord w = .ok (.ldI (w.extractLsb' 0 12))) ∧
    (w &&& 0xF000#16 = 0xB000#16 → decodeWord w = .ok (.jpV0 (w.extractLsb' 0 12))) ∧
    (w &&& 0xF000#16 = 0xC000#16 → decodeWord w = .ok (.rnd (w.extractLsb' 8 4) (w.extractLsb' 0 8))) ∧
    (w &&& 0xF000#16 = 0xD000#16 → decodeWord w = .ok (.drw (w.extractLsb' 8 4) (w.extractLsb' 4 4) (w.extractLsb' 0 4))) ∧
    (w &&& 0xF0FF#16 = 0xE09E#16 → decodeWord w = .ok (.skp (w.extractLsb' 8 4))) ∧
    (w &&& 0xF0FF#16 = 0xE0A1#16 → decodeWord w = .ok (.sknp (w.extractLsb' 8 4))) ∧
    (w &&& 0xF0FF#16 = 0xF007#16 → decodeWord w = .ok (.ldVxDt (w.extractLsb' 8 4))) ∧
    (w &&& 0xF0FF#16 = 0xF00A#16 → decodeWord w = .ok (.ldVxK (w.extractLsb' 8 4))) ∧
    (w &&& 0xF0FF#16 = 0xF015#16 → decodeWord w = .ok (.ldDtVx (w.extractLsb' 8 4))) ∧
    (w &&& 0xF0FF#16 = 0xF018#16 → decodeWord w = .ok (.ldStVx (w.extractLsb' 8 4))) ∧
    (w &&& 0xF0FF#16 = 0xF01E#16 → decodeWord w = .ok (.addI (w.extractLsb' 8 4))) ∧
    (w &&& 0xF0FF#16 = 0xF029#16 → decodeWord w = .ok (.ldF (w.extractLsb' 8 4))) ∧
    (w &&& 0xF0FF#16 = 0xF033#16 → decodeWord w = .ok (.ldB (w.extractLsb' 8 4))) ∧
    (w &&& 0xF0FF#16 = 0xF055#16 → decodeWord w = .ok (.storeRegs (w.extractLsb' 8 4))) ∧
    (w &&& 0xF0FF#16 = 0xF065#16 → decodeWord w = .ok (.loadRegs (w.extractLsb' 8 4)))

/-- The decoder rejects exactly the words of the unimplemented space, by name (30_encoding.md section 4 (the
unimplemented space, clauses a to d)). -/
def Obligations.UnimplementedSpaceIsTheComplement : Prop :=
  ∀ w : Word,
    (inUnimplementedSpace w ↔ decodeWord w = .error (.unimplemented w)) ∧
    (¬ inUnimplementedSpace w ↔ ∃ i, decodeWord w = .ok i)

/-- Words written out in the spec's examples and vectors decode to what they stand for. It fixes opcode numbers the spec
marks as general knowledge: assumption log 10 (PRESUMED, unsafe for a claim about a particular word)
(95_test_vectors.md parts 1 and 2 (words of the vectors), 95_test_vectors.md part 3, P5 (0xE29E), 41_register_ops.md
R131 (0x830E, its example), 45_keypad.md R166 (0xE29E, its example), 30_encoding.md section 2 (tables of the
decoder)). -/
def Obligations.SpecWordsDecode : Prop :=
  decodeWord 0x6005 = .ok (.ldImm 0 5) ∧ decodeWord 0xA234 = .ok (.ldI 0x234) ∧
  decodeWord 0x1ABC = .ok (.jp 0xABC) ∧ decodeWord 0x2300 = .ok (.call 0x300) ∧
  decodeWord 0x0FEE = .ok (.ret 0xF) ∧ decodeWord 0x01E0 = .ok (.cls 1) ∧
  decodeWord 0x5017 = .ok (.seReg 0 1 7) ∧ decodeWord 0x8F14 = .ok (.addReg 0xF 1) ∧
  decodeWord 0x830E = .ok (.shl 3 0) ∧ decodeWord 0xC10F = .ok (.rnd 1 0x0F) ∧
  decodeWord 0xD012 = .ok (.drw 0 1 2) ∧ decodeWord 0xE29E = .ok (.skp 2) ∧
  decodeWord 0xE0A1 = .ok (.sknp 0) ∧ decodeWord 0xF30A = .ok (.ldVxK 3) ∧
  decodeWord 0xFF55 = .ok (.storeRegs 0xF) ∧ decodeWord 0xF265 = .ok (.loadRegs 2) ∧
  decodeWord 0x8128 = .error (.unimplemented 0x8128) ∧ decodeWord 0x0000 = .error (.unimplemented 0x0000) ∧
  decodeWord 0xE19F = .error (.unimplemented 0xE19F) ∧ decodeWord 0xF1FF = .error (.unimplemented 0xF1FF)

/-- The bits no decode key examines do not change what an instruction does (30_encoding.md section 3 (bits the decoder
does not examine), 40_control_flow.md (00EE), 60_exceptions.md section 1 (StackUnderflow and the fatal fault
entry)). -/
def Obligations.UnexaminedBitsChangeNothing : Prop :=
  ∀ (s : State) (a b : Nibble) (x y y' : Reg),
    exec (.cls a) s = exec (.cls b) s ∧
    exec (.seReg x y a) s = exec (.seReg x y b) s ∧ exec (.sneReg x y a) s = exec (.sneReg x y b) s ∧
    exec (.shr x y) s = exec (.shr x y') s ∧ exec (.shl x y) s = exec (.shl x y') s ∧
    (0 < s.sp.val → exec (.ret a) s = exec (.ret b) s) ∧
    (s.sp.val = 0 → ∀ g : Nibble, ∃ t, exec (.ret g) s = .next t ∧
      FatalEntry .stackUnderflow (0x0#4 ++ g ++ 0xEE#8) (s.pc - 2) s t)

/-- A step runs the instruction that the two bytes at PC decode to (60_exceptions.md section 2 (the instruction step),
10_state.md section 3 (PC)). -/
def Obligations.StepRunsTheDecodedInstruction : Prop :=
  ∀ (s : State) (w : Word) (i : Instr), s.ready → s.pc.toNat ≤ 0xFFE →
    (s.byteAt s.pc.toNat ++ s.byteAt (s.pc.toNat + 1) : Word) = w → decodeWord w = .ok i →
    step s = exec i { s with pc := s.pc + 2, ir := w, agenda := s.agenda.tail }

/-- The word withFetchWord places is the one the very next step runs (60_exceptions.md section 2 (the instruction step),
20_memory.md section 2 (byte order)). -/
def Obligations.PlacedWordRunsNext : Prop :=
  ∀ (s : State) (w : Nat) (i : Instr), Memory.wf s.font s.mem = true → decodeTableWord 16 w = some i →
    ∃ f, step (s.withFetchWord 16 w) = exec i f ∧ f.ir = BitVec.ofNat 16 w ∧
      (s.pc.toNat ≤ 0xFFE → f.pc = s.pc + 2) ∧ (0xFFE < s.pc.toNat → f.pc = 0x202) ∧
      (∀ a, a ≠ f.pc.toNat - 2 → a ≠ f.pc.toNat - 1 → f.byteAt a = s.byteAt a) ∧
      SameExcept [.pc, .ir, .memory, .runState, .keyWait, .agenda] s f

/-- A word of the unimplemented space emits one diagnostic, PC passes it, and the run continues (49_unimplemented.md,
60_exceptions.md section 1 (UnimplementedInstruction), 60_exceptions.md section 2 (the instruction step writes IR)). -/
def Obligations.UnimplementedWordIsLoggedAndPassed : Prop :=
  ∀ (s : State) (w : Word), s.ready → s.pc.toNat ≤ 0xFFE →
    (s.byteAt s.pc.toNat ++ s.byteAt (s.pc.toNat + 1) : Word) = w → inUnimplementedSpace w →
    ∃ t, step s = .next t ∧ t.pc = s.pc + 2 ∧ t.ir = w ∧
      t.outputs = s.outputs ++ [.diag .unimplementedInstruction w s.pc] ∧ t.agenda = s.agenda.tail ∧
      SameExcept [.pc, .ir, .outputs, .agenda] s t

/-- A fetch with PC above 0xFFE raises MemoryBounds with opcode 0 and leaves PC where it is (60_exceptions.md section 1
(MemoryBounds, fatal fault entry), 20_memory.md section 4 (bounds)). -/
def Obligations.FetchBeyondMemoryFaults : Prop :=
  ∀ s : State, s.ready → 0xFFE < s.pc.toNat →
    ∃ t, step s = .next t ∧ FatalEntry .memoryBounds 0 s.pc { s with agenda := s.agenda.tail } t

/-- In a key wait a step is one poll: with a key it stores it and ends the wait, without one it waits on (45_keypad.md
(the key wait)). -/
def Obligations.KeyWaitPolls : Prop :=
  ∀ s : State, s.runState = .running → s.waitKey = true → s.due = .step →
    ∃ t, step s = .next t ∧
      (∀ k, s.key = some k → t.reg (s.ir.extractLsb' 8 4) = k.setWidth 8 ∧
        SameRegsBut [s.ir.extractLsb' 8 4] s t ∧ t.waitKey = false) ∧
      (s.key = none → (∀ r, t.reg r = s.reg r) ∧ t.waitKey = true) ∧
      t.keyFeed = s.keyFeed.tail ∧ t.keyDraws = s.keyDraws + 1 ∧ t.agenda = s.agenda.tail ∧
      SameExcept [.registers, .keyWait, .keyInput, .agenda] s t

/-- In Paused and Stopped neither a step nor a tick changes anything (60_exceptions.md section 2 (pause, stop) and
section 3 (the tick is enabled only when Running)). -/
def Obligations.NothingRunsUnlessRunning : Prop :=
  ∀ s : State, s.runState ≠ .running → s.due = .step ∨ s.due = .tick →
    step s = .next { s with agenda := s.agenda.tail }

/-- No step is without a successor: every state has a next state (93_implementation_defined.md part 1 (nothing in this
machine is stuck), 60_exceptions.md section 1 (faults are transitions)). -/
def Obligations.EveryStepAnswersANextState : Prop :=
  ∀ s : State, ∃ t, step s = .next t

/-- 6XNN loads the immediate into VX and changes nothing else (R121). -/
def Obligations.LoadImmediateResult : Prop :=
  (∀ w : Word, w &&& 0xF000#16 = 0x6000#16 → decodeWord w = .ok (.ldImm (w.extractLsb' 8 4) (w.extractLsb' 0 8))) ∧
  ∀ (s : State) (x : Reg) (nn : Byte),
    ∃ t, exec (.ldImm x nn) s = .next t ∧ t.reg x = nn ∧ SameRegsBut [x] s t ∧ SameExcept [.registers] s t

/-- 7XNN adds the immediate to VX mod 256 and writes no flag (R122). -/
def Obligations.AddImmediateResult : Prop :=
  (∀ w : Word, w &&& 0xF000#16 = 0x7000#16 → decodeWord w = .ok (.addImm (w.extractLsb' 8 4) (w.extractLsb' 0 8))) ∧
  ∀ (s : State) (x : Reg) (nn : Byte),
    ∃ t, exec (.addImm x nn) s = .next t ∧ t.reg x = BitVec.ofNat 8 (((s.reg x).toNat + nn.toNat) % 256) ∧
      SameRegsBut [x] s t ∧ SameExcept [.registers] s t

/-- 8XY0 to 8XY3 copy, OR, AND and XOR into VX and leave VF alone (R123, R124, R125, R126). -/
def Obligations.CopyAndLogicResults : Prop :=
  (∀ w : Word, w &&& 0xF00F#16 = 0x8000#16 → decodeWord w = .ok (.ldReg (w.extractLsb' 8 4) (w.extractLsb' 4 4))) ∧
  (∀ w : Word, w &&& 0xF00F#16 = 0x8001#16 → decodeWord w = .ok (.orReg (w.extractLsb' 8 4) (w.extractLsb' 4 4))) ∧
  (∀ w : Word, w &&& 0xF00F#16 = 0x8002#16 → decodeWord w = .ok (.andReg (w.extractLsb' 8 4) (w.extractLsb' 4 4))) ∧
  (∀ w : Word, w &&& 0xF00F#16 = 0x8003#16 → decodeWord w = .ok (.xorReg (w.extractLsb' 8 4) (w.extractLsb' 4 4))) ∧
  ∀ (s : State) (x y : Reg),
    (∃ t, exec (.ldReg x y) s = .next t ∧ t.reg x = s.reg y ∧ SameRegsBut [x] s t ∧
      SameExcept [.registers] s t) ∧
    (∃ t, exec (.orReg x y) s = .next t ∧ t.reg x = s.reg x ||| s.reg y ∧ SameRegsBut [x] s t ∧
      SameExcept [.registers] s t) ∧
    (∃ t, exec (.andReg x y) s = .next t ∧ t.reg x = s.reg x &&& s.reg y ∧ SameRegsBut [x] s t ∧
      SameExcept [.registers] s t) ∧
    (∃ t, exec (.xorReg x y) s = .next t ∧ t.reg x = s.reg x ^^^ s.reg y ∧ SameRegsBut [x] s t ∧
      SameExcept [.registers] s t)

/-- 8XY4 adds mod 256 and sets VF to the carry, the flag last (R127). -/
def Obligations.AddWithCarryResult : Prop :=
  (∀ w : Word, w &&& 0xF00F#16 = 0x8004#16 → decodeWord w = .ok (.addReg (w.extractLsb' 8 4) (w.extractLsb' 4 4))) ∧
  ∀ (s : State) (x y : Reg),
    (∃ t, exec (.addReg x y) s = .next t ∧ (x ≠ 0xF → t.reg x = BitVec.ofNat 8 (((s.reg x).toNat + (s.reg y).toNat) % 256)) ∧
      t.reg 0xF = (if (s.reg x).toNat + (s.reg y).toNat > 255 then 1 else 0) ∧ SameRegsBut [x, 0xF] s t ∧ SameExcept [.registers] s t)

/-- 8XY5 and 8XY7 subtract mod 256 and set VF to no-borrow, equality included (R128, R130). -/
def Obligations.SubtractResults : Prop :=
  (∀ w : Word, w &&& 0xF00F#16 = 0x8005#16 → decodeWord w = .ok (.subReg (w.extractLsb' 8 4) (w.extractLsb' 4 4))) ∧
  (∀ w : Word, w &&& 0xF00F#16 = 0x8007#16 → decodeWord w = .ok (.subnReg (w.extractLsb' 8 4) (w.extractLsb' 4 4))) ∧
  ∀ (s : State) (x y : Reg),
    (∃ t, exec (.subReg x y) s = .next t ∧ (x ≠ 0xF → t.reg x = BitVec.ofNat 8 ((256 + (s.reg x).toNat - (s.reg y).toNat) % 256)) ∧
      t.reg 0xF = (if (s.reg x).toNat ≥ (s.reg y).toNat then 1 else 0) ∧ SameRegsBut [x, 0xF] s t ∧ SameExcept [.registers] s t) ∧
    (∃ t, exec (.subnReg x y) s = .next t ∧ (x ≠ 0xF → t.reg x = BitVec.ofNat 8 ((256 + (s.reg y).toNat - (s.reg x).toNat) % 256)) ∧
      t.reg 0xF = (if (s.reg y).toNat ≥ (s.reg x).toNat then 1 else 0) ∧ SameRegsBut [x, 0xF] s t ∧ SameExcept [.registers] s t)

/-- 8XY6 and 8XYE shift VX itself by one and set VF to the bit shifted out (R129, R131). -/
def Obligations.ShiftResults : Prop :=
  (∀ w : Word, w &&& 0xF00F#16 = 0x8006#16 → decodeWord w = .ok (.shr (w.extractLsb' 8 4) (w.extractLsb' 4 4))) ∧
  (∀ w : Word, w &&& 0xF00F#16 = 0x800E#16 → decodeWord w = .ok (.shl (w.extractLsb' 8 4) (w.extractLsb' 4 4))) ∧
  ∀ (s : State) (x y : Reg),
    (∃ t, exec (.shr x y) s = .next t ∧ (x ≠ 0xF → t.reg x = BitVec.ofNat 8 ((s.reg x).toNat / 2)) ∧
      t.reg 0xF = (if (s.reg x).toNat % 2 = 1 then 1 else 0) ∧ SameRegsBut [x, 0xF] s t ∧ SameExcept [.registers] s t) ∧
    (∃ t, exec (.shl x y) s = .next t ∧ (x ≠ 0xF → t.reg x = BitVec.ofNat 8 (2 * (s.reg x).toNat % 256)) ∧
      t.reg 0xF = (if (s.reg x).toNat ≥ 128 then 1 else 0) ∧ SameRegsBut [x, 0xF] s t ∧ SameExcept [.registers] s t)

/-- 1NNN jumps to NNN, BNNN to NNN + V0 unmasked, and nothing else changes (R101, R108). -/
def Obligations.JumpResults : Prop :=
  (∀ w : Word, w &&& 0xF000#16 = 0x1000#16 → decodeWord w = .ok (.jp (w.extractLsb' 0 12))) ∧
  (∀ w : Word, w &&& 0xF000#16 = 0xB000#16 → decodeWord w = .ok (.jpV0 (w.extractLsb' 0 12))) ∧
  ∀ (s : State) (nnn : Addr),
    (∃ t, exec (.jp nnn) s = .next t ∧ t.pc.toNat = nnn.toNat ∧ SameExcept [.pc] s t ∧ NextFetchIsChecked t) ∧
    (∃ t, exec (.jpV0 nnn) s = .next t ∧ t.pc.toNat = nnn.toNat + (s.reg 0).toNat ∧ SameExcept [.pc] s t ∧
      NextFetchIsChecked t)

/-- 2NNN pushes the advanced PC and jumps, or raises StackOverflow with the stack full (R102). -/
def Obligations.CallResult : Prop :=
  (∀ w : Word, w &&& 0xF000#16 = 0x2000#16 → decodeWord w = .ok (.call (w.extractLsb' 0 12))) ∧
  ∀ (s : State) (nnn : Addr),
    (s.sp.val < 16 → ∃ t, exec (.call nnn) s = .next t ∧ t.sp.val = s.sp.val + 1 ∧ t.pc.toNat = nnn.toNat ∧
      (∀ k (h : k < 16), t.stack[k]'h = if k = s.sp.val then s.pc else s.stack[k]'h) ∧
      SameExcept [.stackEntries, .sp, .pc] s t) ∧
    (s.sp.val = 16 → ∃ t, exec (.call nnn) s = .next t ∧ FatalEntry .stackOverflow (0x2#4 ++ nnn) (s.pc - 2) s t)

/-- 00EE pops PC, or raises StackUnderflow with nothing pushed (R103). -/
def Obligations.ReturnResult : Prop :=
  (∀ w : Word, w &&& 0xF0FF#16 = 0x00EE#16 → decodeWord w = .ok (.ret (w.extractLsb' 8 4))) ∧
  ∀ (s : State) (g : Nibble),
    (∀ h : 0 < s.sp.val, ∃ t, exec (.ret g) s = .next t ∧ t.sp.val = s.sp.val - 1 ∧
      t.pc = s.stack[s.sp.val - 1]'(by have := s.sp.isLt; omega) ∧ SameExcept [.sp, .pc] s t ∧
      NextFetchIsChecked t) ∧
    (s.sp.val = 0 → ∃ t, exec (.ret g) s = .next t ∧
      FatalEntry .stackUnderflow (0x0#4 ++ g ++ 0xEE#8) (s.pc - 2) s t)

/-- The four compare-and-skip instructions skip exactly when their condition holds (R104, R105, R106, R107). -/
def Obligations.SkipResults : Prop :=
  (∀ w : Word, w &&& 0xF000#16 = 0x3000#16 → decodeWord w = .ok (.seImm (w.extractLsb' 8 4) (w.extractLsb' 0 8))) ∧
  (∀ w : Word, w &&& 0xF000#16 = 0x4000#16 → decodeWord w = .ok (.sneImm (w.extractLsb' 8 4) (w.extractLsb' 0 8))) ∧
  (∀ w : Word, w &&& 0xF000#16 = 0x5000#16 → decodeWord w = .ok (.seReg (w.extractLsb' 8 4) (w.extractLsb' 4 4) (w.extractLsb' 0 4))) ∧
  (∀ w : Word, w &&& 0xF000#16 = 0x9000#16 → decodeWord w = .ok (.sneReg (w.extractLsb' 8 4) (w.extractLsb' 4 4) (w.extractLsb' 0 4))) ∧
  ∀ (s : State) (x y : Reg) (nn : Byte) (g : Nibble),
    (∃ t, exec (.seImm x nn) s = .next t ∧ t.pc = (if s.reg x = nn then s.pc + 2 else s.pc) ∧ SameExcept [.pc] s t) ∧
    (∃ t, exec (.sneImm x nn) s = .next t ∧ t.pc = (if s.reg x ≠ nn then s.pc + 2 else s.pc) ∧ SameExcept [.pc] s t) ∧
    (∃ t, exec (.seReg x y g) s = .next t ∧ t.pc = (if s.reg x = s.reg y then s.pc + 2 else s.pc) ∧ SameExcept [.pc] s t) ∧
    (∃ t, exec (.sneReg x y g) s = .next t ∧ t.pc = (if s.reg x ≠ s.reg y then s.pc + 2 else s.pc) ∧ SameExcept [.pc] s t)

/-- ANNN loads I, FX1E adds VX to I mod 4096 without a flag (R140, R141). -/
def Obligations.IndexResults : Prop :=
  (∀ w : Word, w &&& 0xF000#16 = 0xA000#16 → decodeWord w = .ok (.ldI (w.extractLsb' 0 12))) ∧
  (∀ w : Word, w &&& 0xF0FF#16 = 0xF01E#16 → decodeWord w = .ok (.addI (w.extractLsb' 8 4))) ∧
  ∀ (s : State) (nnn : Addr) (x : Reg),
    (∃ t, exec (.ldI nnn) s = .next t ∧ t.i = nnn ∧ SameExcept [.index] s t) ∧
    (∃ t, exec (.addI x) s = .next t ∧ t.i.toNat = (s.i.toNat + (s.reg x).toNat) % 4096 ∧ SameExcept [.index] s t)

/-- CXNN writes a fresh random byte AND the immediate (43_random.md, 60_exceptions.md section 5 (random port)). -/
def Obligations.RandomResult : Prop :=
  (∀ w : Word, w &&& 0xF000#16 = 0xC000#16 → decodeWord w = .ok (.rnd (w.extractLsb' 8 4) (w.extractLsb' 0 8))) ∧
  ∀ (s : State) (x : Reg) (nn : Byte),
    ∃ t, exec (.rnd x nn) s = .next t ∧
      (∀ r rest, s.rndFeed = r :: rest → t.reg x = r &&& nn ∧ t.rndFeed = rest) ∧
      (s.rndFeed = [] → t.reg x = Config.randomByte s.rndDraws &&& nn ∧ t.rndFeed = []) ∧
      t.rndDraws = s.rndDraws + 1 ∧ SameRegsBut [x] s t ∧ SameExcept [.registers, .randomInput] s t

/-- DXYN XORs the sprite onto the screen, clipped, and sets VF to the collision (R155). -/
def Obligations.DrawResult : Prop :=
  (∀ w : Word, w &&& 0xF000#16 = 0xD000#16 → decodeWord w = .ok (.drw (w.extractLsb' 8 4) (w.extractLsb' 4 4) (w.extractLsb' 0 4))) ∧
  ∀ (s : State) (x y : Reg) (n : Nibble),
    (s.i.toNat + s.rowsOnScreen y n ≤ 0x1000 → ∃ t, exec (.drw x y n) s = .next t ∧
      (∀ col row, col < 64 → row < 32 →
        Framebuffer.lit t.fb col row = (Framebuffer.lit s.fb col row ^^ s.spritePixel x y n col row)) ∧
      ((∃ col row, col < 64 ∧ row < 32 ∧ s.spritePixel x y n col row = true ∧ Framebuffer.lit s.fb col row = true) →
        t.reg 0xF = 1) ∧
      ((∀ col row, col < 64 → row < 32 → s.spritePixel x y n col row = true → Framebuffer.lit s.fb col row = false) →
        t.reg 0xF = 0) ∧
      SameRegsBut [0xF] s t ∧ SameExcept [.registers, .screen] s t) ∧
    (0x1000 < s.i.toNat + s.rowsOnScreen y n → ∃ t, exec (.drw x y n) s = .next t ∧
      FatalEntry .memoryBounds (0xD#4 ++ x ++ y ++ n) (s.pc - 2) s t)

/-- Drawing the same sprite twice at the same place restores the framebuffer and reports a collision exactly when the
first draw set a pixel (44_sprite_draw.md (DXYN, corner cases), 95_test_vectors.md part 1, S10). -/
def Obligations.DrawingTwiceRestoresTheScreen : Prop :=
  ∀ (s t u : State) (x y : Reg) (n : Nibble), s.i.toNat + s.rowsOnScreen y n ≤ 0x1000 →
    exec (.drw x y n) s = .next t → exec (.drw x y n) t = .next u →
    (t.reg x).toNat % 64 = (s.reg x).toNat % 64 → (t.reg y).toNat % 32 = (s.reg y).toNat % 32 →
    u.fb = s.fb ∧
      (u.reg 0xF = 1 ↔ ∃ col row, Framebuffer.lit s.fb col row = false ∧ Framebuffer.lit t.fb col row = true)

/-- 00E0 clears all 2048 cells and changes nothing else (48_screen_clear.md (00E0)). -/
def Obligations.ClearResult : Prop :=
  (∀ w : Word, w &&& 0xF0FF#16 = 0x00E0#16 → decodeWord w = .ok (.cls (w.extractLsb' 8 4))) ∧
  ∀ (s : State) (g : Nibble), ∃ t, exec (.cls g) s = .next t ∧
    (∀ col row, Framebuffer.lit t.fb col row = false) ∧ SameExcept [.screen] s t

/-- EX9E skips exactly when the sampled key is VX, EXA1 exactly when it is not (R166, R167). -/
def Obligations.KeySkipResults : Prop :=
  (∀ w : Word, w &&& 0xF0FF#16 = 0xE09E#16 → decodeWord w = .ok (.skp (w.extractLsb' 8 4))) ∧
  (∀ w : Word, w &&& 0xF0FF#16 = 0xE0A1#16 → decodeWord w = .ok (.sknp (w.extractLsb' 8 4))) ∧
  ∀ (s : State) (x : Reg),
    (∃ t, exec (.skp x) s = .next t ∧
      (∀ k, s.key = some k → t.pc = if k.toNat = (s.reg x).toNat then s.pc + 2 else s.pc) ∧
      (s.key = none → t.pc = s.pc) ∧ t.keyFeed = s.keyFeed.tail ∧ t.keyDraws = s.keyDraws + 1 ∧
      SameExcept [.pc, .keyInput] s t) ∧
    (∃ t, exec (.sknp x) s = .next t ∧
      (∀ k, s.key = some k → t.pc = if k.toNat = (s.reg x).toNat then s.pc else s.pc + 2) ∧
      (s.key = none → t.pc = s.pc + 2) ∧ t.keyFeed = s.keyFeed.tail ∧ t.keyDraws = s.keyDraws + 1 ∧
      SameExcept [.pc, .keyInput] s t)

/-- FX0A stores the sampled key at once, or enters the wait with its word in IR (R168). -/
def Obligations.KeyLoadResult : Prop :=
  (∀ w : Word, w &&& 0xF0FF#16 = 0xF00A#16 → decodeWord w = .ok (.ldVxK (w.extractLsb' 8 4))) ∧
  ∀ (s : State) (x : Reg),
    (∀ k, s.key = some k → ∃ t, exec (.ldVxK x) s = .next t ∧ t.reg x = k.setWidth 8 ∧ SameRegsBut [x] s t ∧
      t.keyFeed = s.keyFeed.tail ∧ t.keyDraws = s.keyDraws + 1 ∧ SameExcept [.registers, .keyInput] s t) ∧
    (s.key = none → ∃ t, exec (.ldVxK x) s = .next t ∧ t.ir = 0xF#4 ++ x ++ 0x0A#8 ∧ t.waitKey = true ∧
      t.keyFeed = s.keyFeed.tail ∧ t.keyDraws = s.keyDraws + 1 ∧ SameExcept [.ir, .keyWait, .keyInput] s t) ∧
    (s.runState = .running → s.waitKey = true → s.due = .step → s.ir = 0xF#4 ++ x ++ 0x0A#8 →
      ∃ t, step s = .next t ∧ t.pc = s.pc ∧ (∀ k, s.key = some k → t.reg x = k.setWidth 8 ∧ t.waitKey = false) ∧
        (s.key = none → (∀ r, t.reg r = s.reg r) ∧ t.waitKey = true))

/-- FX07 reads DT; FX18 writes ST and pulses tone_start exactly for a nonzero value (R175, R177). -/
def Obligations.TimerInstructionResults : Prop :=
  (∀ w : Word, w &&& 0xF0FF#16 = 0xF007#16 → decodeWord w = .ok (.ldVxDt (w.extractLsb' 8 4))) ∧
  (∀ w : Word, w &&& 0xF0FF#16 = 0xF018#16 → decodeWord w = .ok (.ldStVx (w.extractLsb' 8 4))) ∧
  ∀ (s : State) (x : Reg),
    (∃ t, exec (.ldVxDt x) s = .next t ∧ t.reg x = s.dt ∧ SameRegsBut [x] s t ∧ SameExcept [.registers] s t) ∧
    (∃ t, exec (.ldStVx x) s = .next t ∧ t.st = s.reg x ∧ (s.reg x ≠ 0 → t.outputs = s.outputs ++ [.toneStart]) ∧
      (s.reg x = 0 → t.outputs = s.outputs) ∧ SameExcept [.soundTimer, .outputs] s t)

/-- FX15 writes DT and emits no tone signal (46_timers.md (FX15)). -/
def Obligations.DelayTimerWriteResult : Prop :=
  (∀ w : Word, w &&& 0xF0FF#16 = 0xF015#16 → decodeWord w = .ok (.ldDtVx (w.extractLsb' 8 4))) ∧
  ∀ (s : State) (x : Reg), ∃ t, exec (.ldDtVx x) s = .next t ∧ t.dt = s.reg x ∧ SameExcept [.delayTimer] s t

/-- A tick counts both timers down to 0 and pulses tone_stop exactly when it takes ST from 1 to 0 (R220). -/
def Obligations.TickResult : Prop :=
  (∀ s : State, s.runState = .running → s.due = .tick →
    ∃ t, step s = .next t ∧ t.dt.toNat = s.dt.toNat - 1 ∧ t.st.toNat = s.st.toNat - 1 ∧
      (s.st = 1 → t.outputs = s.outputs ++ [.toneStop]) ∧ (s.st ≠ 1 → t.outputs = s.outputs) ∧
      t.agenda = s.agenda.tail ∧ SameExcept [.delayTimer, .soundTimer, .outputs, .agenda] s t) ∧
  (∀ s t : State, s.due ≠ .tick → step s = .next t → ∃ new, t.outputs = s.outputs ++ new ∧ Output.toneStop ∉ new)

/-- After n ticks both timers are n lower or 0, and tone_stop came exactly once if ST was between 1 and n
(95_test_vectors.md part 1, S5 and S6, 60_exceptions.md section 3 (timer clock)). -/
def Obligations.TicksCountTimersToZeroOnce : Prop :=
  ∀ (n : Nat) (s : State) (rest : List Event), s.runState = .running →
    s.agenda = List.replicate n .tick ++ rest →
    ∃ t : State, Host.Core.run core n s = .next t ∧ t.dt.toNat = s.dt.toNat - n ∧ t.st.toNat = s.st.toNat - n ∧
      t.outputs = s.outputs ++ (if 0 < s.st.toNat ∧ s.st.toNat ≤ n then [.toneStop] else []) ∧
      t.agenda = rest ∧ SameExcept [.delayTimer, .soundTimer, .outputs, .agenda] s t

/-- FX29 sets I to five times the low nibble of VX (R185). -/
def Obligations.GlyphAddressResult : Prop :=
  (∀ w : Word, w &&& 0xF0FF#16 = 0xF029#16 → decodeWord w = .ok (.ldF (w.extractLsb' 8 4))) ∧
  ∀ (s : State) (x : Reg), ∃ t, exec (.ldF x) s = .next t ∧ t.i.toNat = (s.reg x).toNat % 16 * 5 % 256 ∧
    SameExcept [.index] s t

/-- FX33 stores hundreds, tens, ones at I, I+1, I+2, or raises MemoryBounds with no byte written (R186). -/
def Obligations.DecimalDigitsResult : Prop :=
  (∀ w : Word, w &&& 0xF0FF#16 = 0xF033#16 → decodeWord w = .ok (.ldB (w.extractLsb' 8 4))) ∧
  ∀ (s : State) (x : Reg),
    (Memory.wf s.font s.mem = true → s.i.toNat + 2 ≤ 0xFFF → ∃ t, exec (.ldB x) s = .next t ∧
      t.byteAt s.i.toNat = BitVec.ofNat 8 ((s.reg x).toNat / 100) ∧
      t.byteAt (s.i.toNat + 1) = BitVec.ofNat 8 ((s.reg x).toNat / 10 % 10) ∧
      t.byteAt (s.i.toNat + 2) = BitVec.ofNat 8 ((s.reg x).toNat % 10) ∧
      SameBytesOutside s.i.toNat 3 s t ∧ SameExcept [.memory] s t) ∧
    (0xFFF < s.i.toNat + 2 → ∃ t, exec (.ldB x) s = .next t ∧
      FatalEntry .memoryBounds (0xF#4 ++ x ++ 0x33#8) (s.pc - 2) s t)

/-- FX55 stores V0 to VX, VX included, at I upward, or raises MemoryBounds with no byte written (R187). -/
def Obligations.StoreRegistersResult : Prop :=
  (∀ w : Word, w &&& 0xF0FF#16 = 0xF055#16 → decodeWord w = .ok (.storeRegs (w.extractLsb' 8 4))) ∧
  ∀ (s : State) (x : Reg),
    (Memory.wf s.font s.mem = true → s.i.toNat + x.toNat ≤ 0xFFF → ∃ t, exec (.storeRegs x) s = .next t ∧
      (∀ k : Reg, k.toNat ≤ x.toNat → t.byteAt (s.i.toNat + k.toNat) = s.reg k) ∧
      SameBytesOutside s.i.toNat (x.toNat + 1) s t ∧ SameExcept [.memory] s t) ∧
    (0xFFF < s.i.toNat + x.toNat → ∃ t, exec (.storeRegs x) s = .next t ∧
      FatalEntry .memoryBounds (0xF#4 ++ x ++ 0x55#8) (s.pc - 2) s t)

/-- FX65 loads V0 to VX, VX included, from I upward, or raises MemoryBounds with no register written (R188). -/
def Obligations.LoadRegistersResult : Prop :=
  (∀ w : Word, w &&& 0xF0FF#16 = 0xF065#16 → decodeWord w = .ok (.loadRegs (w.extractLsb' 8 4))) ∧
  ∀ (s : State) (x : Reg),
    (s.i.toNat + x.toNat ≤ 0xFFF → ∃ t, exec (.loadRegs x) s = .next t ∧
      (∀ k : Reg, t.reg k = if k.toNat ≤ x.toNat then s.byteAt (s.i.toNat + k.toNat) else s.reg k) ∧
      SameExcept [.registers] s t) ∧
    (0xFFF < s.i.toNat + x.toNat → ∃ t, exec (.loadRegs x) s = .next t ∧
      FatalEntry .memoryBounds (0xF#4 ++ x ++ 0x65#8) (s.pc - 2) s t)

/-- A store over the next instruction is what the next fetch reads, V0 as its high byte (20_memory.md section 6
(instruction-fetch coherence) and section 2 (byte order of stores)). -/
def Obligations.StoredBytesAreFetchedAsStored : Prop :=
  ∀ (s : State) (x : Reg), Memory.wf s.font s.mem = true → s.i.toNat = s.pc.toNat → 1 ≤ x.toNat →
    s.i.toNat + x.toNat ≤ 0xFFF →
    ∃ t, exec (.storeRegs x) s = .next t ∧ t.fetchWord = some (s.reg 0 ++ s.reg 1)

/-- An instruction either runs on with the fault record untouched, or takes the one fault its kind can raise and changes
nothing else (60_exceptions.md section 1 (fatal fault entry, precise faults, one fault per step)). -/
def Obligations.FaultsArePreciseAndAttributed : Prop :=
  ∀ (i : Instr) (s t : State), s.runState = .running → exec i s = .next t →
    (t.runState = .running ∧ Part.same s t .faultRecord) ∨
    ∃ kind, FatalEntry kind (encode i) (s.pc - 2) s t ∧
      ((kind = .stackOverflow ∧ ∃ nnn, i = .call nnn) ∨ (kind = .stackUnderflow ∧ ∃ g, i = .ret g) ∨
        (kind = .memoryBounds ∧
          ((∃ x y n, i = .drw x y n) ∨ ∃ x, i = .ldB x ∨ i = .storeRegs x ∨ i = .loadRegs x)))

/-- Which instructions can change I, PC, the stack, the screen, memory, the timers, the wait and the inputs (10_state.md
section 12 (who may write what), 10_state.md sections 2 to 6 (I, PC, stack, timers, framebuffer), 10_state.md
section 8 (CYCLE_RATE), 10_state.md section 9 (WAITKEY and IR), 10_state.md section 10 (the font is a constant),
20_memory.md section 5 (widths: which instructions access memory), 60_exceptions.md section 1 (fatal fault entry),
60_exceptions.md section 5 (key port, random port), 45_keypad.md (FX0A and the wait)). -/
def Obligations.EachStoreHasItsWriters : Prop :=
  ∀ (i : Instr) (s t : State), exec i s = .next t →
    (t.i = s.i ∨ (∃ a, i = .ldI a) ∨ ∃ x, i = .addI x ∨ i = .ldF x) ∧
    (t.stack = s.stack ∨ ∃ a, i = .call a) ∧
    (t.sp = s.sp ∨ (∃ a, i = .call a) ∨ ∃ g, i = .ret g) ∧
    (t.fb = s.fb ∨ (∃ x y n, i = .drw x y n) ∨ ∃ g, i = .cls g) ∧
    ((∀ a, t.byteAt a = s.byteAt a) ∨ ∃ x, i = .ldB x ∨ i = .storeRegs x) ∧
    (t.dt = s.dt ∨ ∃ x, i = .ldDtVx x) ∧ (t.st = s.st ∨ ∃ x, i = .ldStVx x) ∧
    (t.ir = s.ir ∨ ∃ x, i = .ldVxK x) ∧
    (t.waitKey = s.waitKey ∨ (∃ x, i = .ldVxK x) ∨ ∃ kind, FatalEntry kind (encode i) (s.pc - 2) s t) ∧
    (t.pc = s.pc ∨ (∃ a, i = .jp a ∨ i = .jpV0 a ∨ i = .call a) ∨ (∃ g, i = .ret g) ∨
      (∃ x nn, i = .seImm x nn ∨ i = .sneImm x nn) ∨ (∃ x y g, i = .seReg x y g ∨ i = .sneReg x y g) ∨
      ∃ x, i = .skp x ∨ i = .sknp x) ∧
    (Part.same s t .keyInput ∨ ∃ x, i = .skp x ∨ i = .sknp x ∨ i = .ldVxK x) ∧
    (Part.same s t .randomInput ∨ ∃ x nn, i = .rnd x nn) ∧
    t.font = s.font ∧ t.cycleRate = s.cycleRate ∧ t.agenda = s.agenda

/-- A register changes only as a named destination or as the flag, and the flag is 0 or 1 (10_state.md section 1
(general registers and the flag)). -/
def Obligations.RegistersChangeOnlyAsNamed : Prop :=
  ∀ (i : Instr) (s t : State), exec i s = .next t →
    (∀ r, t.reg r ≠ s.reg r → r ∈ destinations i ∨ (r = 0xF ∧ writesFlag i = true)) ∧
    (writesFlag i = true → s.runState = .running → t.runState = .running → t.reg 0xF = 0 ∨ t.reg 0xF = 1)

/-- No instruction can learn RUN_STATE, the fault record, CYCLE_RATE or ST (60_exceptions.md section 4 (one privilege
mode; a program cannot read RUN_STATE or the fault record), 10_state.md sections 5 and 8 (no instruction reads ST or
CYCLE_RATE)). -/
def Obligations.ProgramsCannotSeeControlState : Prop :=
  ∀ (i : Instr) (s s' t t' : State), Memory.wf s.font s.mem = true → Memory.wf s'.font s'.mem = true →
    SameExcept [.runState, .faultRecord, .cycleRate, .soundTimer, .outputs, .agenda] s s' →
    exec i s = .next t → exec i s' = .next t' →
    SameExcept [.runState, .faultRecord, .cycleRate, .soundTimer, .outputs, .agenda] t t'

/-- tone_start comes only from FX18 with a nonzero value, tone_stop only from the tick that takes ST from 1 to 0
(60_exceptions.md section 5 (tone outputs), 46_timers.md (FX18)). -/
def Obligations.TonePulsesComeFromTwoPlaces : Prop :=
  ∀ s t : State, step s = .next t → ∃ new, t.outputs = s.outputs ++ new ∧
    (Output.toneStop ∈ new → s.due = .tick ∧ s.runState = .running ∧ s.st = 1) ∧
    (Output.toneStart ∈ new → (s.due = .step ∨ ∃ reads, s.due = .tornStep reads) ∧ s.runState = .running ∧
      s.waitKey = false ∧ ∃ x, s.fetchWord = some (0xF#4 ++ x ++ 0x18#8) ∧ s.reg x ≠ 0)

/-- Only an accepted reset leaves Stopped or clears a fault on record (60_exceptions.md section 1 (the fault record is
sticky) and section 2 (run-state machine)). -/
def Obligations.StoppedIsLeftOnlyByReset : Prop :=
  (∀ s t : State, step s = .next t → s.runState = .stopped →
    (t.runState = .stopped ∧ Part.same s t .faultRecord) ∨
      ∃ rom, s.due = .command (.reset rom) ∧ rom.length ≤ 3584) ∧
  (∀ s t : State, s.Inv → step s = .next t → s.faultRecorded →
    (t.runState = .stopped ∧ Part.same s t .faultRecord) ∨
      ∃ rom, s.due = .command (.reset rom) ∧ rom.length ≤ 3584)

/-- Every step keeps the machine's invariant (10_state.md section 12 (invariants), 20_memory.md section 1 (4096 bytes)). -/
def Obligations.StepKeepsTheInvariant : Prop :=
  ∀ s t : State, s.Inv → step s = .next t → t.Inv

/-- The state after reset meets the invariant and the ranges (10_state.md section 11 (reset values) and section 12
(invariants)). -/
def Obligations.ResetStateMeetsTheInvariant : Prop :=
  State.reset.Inv ∧ State.reset.InRange

/-- As long as no load-state comes, PC stays at most 0x10FE and every live stack entry between 2 and 0x1000 (10_state.md
section 12 (invariants) and section 3 (PC)). -/
def Obligations.StepKeepsTheRanges : Prop :=
  ∀ s t : State, s.InRange → step s = .next t → t.InRange

/-- pause, unpause and stop move the run state as the table says and keep all else but the key wait; stop clears IR with
WAITKEY (10_state.md R35, read with R216 as assumption log 9 says) (60_exceptions.md section 2 (run-state machine:
pause, unpause, stop), 10_state.md section 9 (WAITKEY and IR)). -/
def Obligations.RunStateCommands : Prop :=
  ∀ s : State,
    (s.due = .command .pause → ∃ t, step s = .next t ∧
      t.runState = (if s.runState = .running then .paused else s.runState) ∧ SameExcept [.runState, .agenda] s t) ∧
    (s.due = .command .unpause → ∃ t, step s = .next t ∧
      t.runState = (if s.runState = .paused then .running else s.runState) ∧ SameExcept [.runState, .agenda] s t) ∧
    (s.due = .command .stop → ∃ t, step s = .next t ∧ t.runState = .stopped ∧
      (s.runState ≠ .stopped → t.waitKey = false ∧ t.ir = 0) ∧ (s.runState = .stopped → SameExcept [.agenda] s t) ∧
      SameExcept [.runState, .keyWait, .ir, .agenda] s t)

/-- An accepted reset leaves exactly the reset state of the spec with the ROM at 0x200 (R261). -/
def Obligations.ResetReinitialisesEverything : Prop :=
  ∀ (s : State) (rom : List Byte), s.due = .command (.reset rom) → rom.length ≤ 3584 →
    ∃ t, step s = .next t ∧ (∀ r, t.reg r = 0) ∧ t.i = 0 ∧ t.pc = 0x200 ∧ (∀ k (h : k < 16), t.stack[k]'h = 0) ∧
      t.sp.val = 0 ∧ t.dt = 0 ∧ t.st = 0 ∧ (∀ col row, Framebuffer.lit t.fb col row = false) ∧
      (∀ g (h : g < 16) r (h' : r < 5), t.byteAt (5 * g + r) = (s.font[g]'h)[r]'h') ∧
      (∀ j (h : j < rom.length), t.byteAt (0x200 + j) = rom[j]'h) ∧
      (∀ a, 80 ≤ a → a < 0x200 ∨ 0x200 + rom.length ≤ a → t.byteAt a = 0) ∧
      t.runState = .running ∧ t.faultKind = .none ∧ t.faultOpcode = 0 ∧ t.faultPc = 0 ∧ t.waitKey = false ∧ t.ir = 0 ∧
      t.agenda = s.agenda.tail ∧
      SameExcept [.registers, .index, .pc, .stackEntries, .sp, .delayTimer, .soundTimer, .screen, .memory, .runState,
        .faultRecord, .keyWait, .ir, .agenda] s t

/-- A reset with more than 3584 ROM bytes changes nothing and emits one diagnostic (R205). -/
def Obligations.OversizedRomIsRejected : Prop :=
  ∀ (s : State) (rom : List Byte), s.due = .command (.reset rom) → 3584 < rom.length →
    ∃ t, step s = .next t ∧
      t.outputs = s.outputs ++ [.diag .oversizedRom (BitVec.ofNat 16 (min rom.length 0xFFFF)) 0] ∧
      t.agenda = s.agenda.tail ∧ SameExcept [.outputs, .agenda] s t

/-- save-state hands the host exactly the snapshot fields and changes nothing (60_exceptions.md section 6 (save-state
and the fields of the snapshot)). -/
def Obligations.SaveStateHandsOutTheFields : Prop :=
  ∀ s : State, s.due = .command .saveState →
    ∃ t f, step s = .next t ∧ t.outputs = s.outputs ++ [.snapshot f] ∧
      (f.mem.length = 4096 ∧ ∀ a, a < 4096 → f.mem[a]? = some (s.byteAt a)) ∧ f.pc = s.pc ∧
      (f.v.length = 16 ∧ ∀ r : Reg, f.v[r.toNat]? = some (s.reg r)) ∧ f.i = s.i.toNat ∧
      (f.stack.length = 16 ∧ ∀ k (h : k < 16), f.stack[k]? = some (s.stack[k]'h)) ∧ f.sp = s.sp.val ∧ f.dt = s.dt ∧
      f.st = s.st ∧ (f.fb.length = 2048 ∧ ∀ col row, col < 64 → row < 32 →
        f.fb[row * 64 + col]? = some (if Framebuffer.lit s.fb col row then 1 else 0)) ∧
      t.agenda = s.agenda.tail ∧ SameExcept [.outputs, .agenda] s t

/-- Loading the snapshot of a state brings back every field of the snapshot (60_exceptions.md section 6 (round trip;
load-state)). -/
def Obligations.SaveThenLoadRestoresEveryField : Prop :=
  ∀ s u : State, Memory.wf s.font s.mem = true → u.runState ≠ .running →
    u.due = .command (.loadState s.snapshot) →
    ∃ t, step u = .next t ∧
      SameExcept [.font, .runState, .faultRecord, .cycleRate, .keyWait, .ir, .keyInput, .randomInput, .agenda,
        .outputs] s t ∧
      t.waitKey = false ∧ t.agenda = u.agenda.tail ∧
      SameExcept [.registers, .index, .pc, .stackEntries, .sp, .delayTimer, .soundTimer, .screen, .memory, .keyWait,
        .ir, .agenda] u t

/-- load-state while Running or with fields no run can produce changes nothing and emits one diagnostic
(60_exceptions.md section 6 (load-state while Running, or with fields no run can produce)). -/
def Obligations.LoadStateIsRefused : Prop :=
  ∀ (s : State) (f : Snapshot), s.due = .command (.loadState f) →
    s.runState = .running ∨ 16 < f.sp ∨ 0xFFF < f.i ∨ f.mem.length ≠ 4096 ∨ f.v.length ≠ 16 ∨ f.stack.length ≠ 16 ∨
      f.fb.length ≠ 2048 ∨ (∃ b ∈ f.fb, b ≠ 0 ∧ b ≠ 1) →
    ∃ t, step s = .next t ∧ t.outputs = s.outputs ++ [.diag .loadStateRefused 0 0] ∧ t.agenda = s.agenda.tail ∧
      SameExcept [.outputs, .agenda] s t

/-- A framebuffer read returns the cell, and a read inside a step returns its value before or after the step. The
records of reads inside a step stand after the step's own outputs by the model's choice: assumption log 15 (DESIGN
CHOICE, unsafe for the order of records; the hardware may interleave them) (60_exceptions.md section 5 (framebuffer
read port), 44_sprite_draw.md (visibility to the host)). -/
def Obligations.FramebufferReads : Prop :=
  (∀ (s : State) (p : BitVec 11), s.due = .readCell p → ∃ t, step s = .next t ∧
    t.outputs = s.outputs ++ [.cell p (if Framebuffer.lit s.fb (p.toNat % 64) (p.toNat / 64) then 1 else 0)] ∧
    t.agenda = s.agenda.tail ∧ SameExcept [.outputs, .agenda] s t) ∧
  (∀ (s u : State) (reads : List TornRead) (rest : List Event), s.agenda = .tornStep reads :: rest →
    step { s with agenda := .step :: rest } = .next u →
    ∃ t, step s = .next t ∧ SameExcept [.outputs] u t ∧
      t.outputs = u.outputs ++ reads.map fun r =>
        .cell r.index (if Framebuffer.lit (if r.after then u.fb else s.fb) (r.index.toNat % 64) (r.index.toNat / 64)
          then 1 else 0))

/-- CYCLE_RATE holds what the host wrote and nothing but a host write changes it; nothing changes the font table. That
every positive integer is stored, however large, is the model's choice: assumption log 8 (DESIGN CHOICE, unsafe; the
spec gives no width and no range) (10_state.md section 8 (CYCLE_RATE), 10_state.md section 10 (the font is a
constant), 00_scope.md R6 (CYCLES_PER_SECOND is a positive integer the host sets)). -/
def Obligations.CycleRateIsAHostRegister : Prop :=
  (∀ (s : State) (rate : CycleRate), s.due = .setCycleRate rate →
    ∃ t, step s = .next t ∧ t.cycleRate = rate ∧ t.agenda = s.agenda.tail ∧ SameExcept [.cycleRate, .agenda] s t) ∧
  (∀ s t : State, step s = .next t → t.font = s.font ∧
    ((∀ rate, s.due ≠ .setCycleRate rate) → t.cycleRate = s.cycleRate))

/-- A finished program goes on stepping at its self-jump and nothing but IR changes (70_reset_and_hazards.md section 4
(the end of a run), 95_test_vectors.md part 2, F2). -/
def Obligations.FinishedProgramSpins : Prop :=
  ∀ s : State, s.finished → s.runState = .running → s.due = .step →
    ∃ t, step s = .next t ∧ t.pc = s.pc ∧ t.finished ∧ t.agenda = s.agenda.tail ∧ SameExcept [.ir, .agenda] s t

/-- The status outputs show the run state and the fault record, in the spec's codes (60_exceptions.md section 5 (status
outputs), 60_exceptions.md section 1 (fault codes), 10_state.md section 8 (RUN_STATE codes, fault record)). -/
def Obligations.StatusOutputCodes : Prop :=
  (RunState.stopped.code = 0 ∧ RunState.running.code = 1 ∧ RunState.paused.code = 2) ∧
  (FaultKind.none.code = 0 ∧ FaultKind.unimplementedInstruction.code = 1 ∧ FaultKind.stackOverflow.code = 2 ∧
    FaultKind.stackUnderflow.code = 3 ∧ FaultKind.memoryBounds.code = 4 ∧ FaultKind.oversizedRom.code = 5 ∧
    FaultKind.loadStateRefused.code = 6) ∧
  (∀ s : State, s.statusPort = (s.runState.code, s.faultKind.code, s.faultOpcode, s.faultPc)) ∧
  ∀ (kind : FaultKind) (op addr : Word) (s t : State), FatalEntry kind op addr s t →
    t.statusPort = (0, kind.code, op, addr)

/-- A run that becomes Stopped shows its cause at fault_kind: 0 after a stop command, 2, 3 or 4 after a fatal fault
(60_exceptions.md section 2 (stop: how a host tells a commanded stop from a fatal fault), 60_exceptions.md section 5
(status outputs), 60_exceptions.md section 1 (fatal fault entry)). -/
def Obligations.StoppedShowsItsCause : Prop :=
  ∀ s t : State, s.Inv → s.runState = .running → step s = .next t → t.runState = .stopped →
    t.statusPort.1 = 0 ∧
    ((s.due = .command .stop ∧ t.statusPort.2.1 = 0) ∨
      ((s.due = .step ∨ ∃ reads, s.due = .tornStep reads) ∧
        (t.statusPort.2.1 = 2 ∨ t.statusPort.2.1 = 3 ∨ t.statusPort.2.1 = 4)))
end

