-- ==== Sys2Proof/Laws/State.lean ====
section
/-! SUPPORT. What each update of the state does to each field: one lemma per field per update, true by `rfl`. -/

namespace Sys2Proof.Machine

variable (s : State)

/-! ### setReg -/

@[simp] theorem State.setReg_v (x : Reg) (b : Byte) : (s.setReg x b).v = s.v.set x.toNat b x.isLt := rfl
@[simp] theorem State.setReg_i (x : Reg) (b : Byte) : (s.setReg x b).i = s.i := rfl
@[simp] theorem State.setReg_pc (x : Reg) (b : Byte) : (s.setReg x b).pc = s.pc := rfl
@[simp] theorem State.setReg_stack (x : Reg) (b : Byte) : (s.setReg x b).stack = s.stack := rfl
@[simp] theorem State.setReg_sp (x : Reg) (b : Byte) : (s.setReg x b).sp = s.sp := rfl
@[simp] theorem State.setReg_dt (x : Reg) (b : Byte) : (s.setReg x b).dt = s.dt := rfl
@[simp] theorem State.setReg_st (x : Reg) (b : Byte) : (s.setReg x b).st = s.st := rfl
@[simp] theorem State.setReg_fb (x : Reg) (b : Byte) : (s.setReg x b).fb = s.fb := rfl
@[simp] theorem State.setReg_mem (x : Reg) (b : Byte) : (s.setReg x b).mem = s.mem := rfl
@[simp] theorem State.setReg_font (x : Reg) (b : Byte) : (s.setReg x b).font = s.font := rfl
@[simp] theorem State.setReg_runState (x : Reg) (b : Byte) : (s.setReg x b).runState = s.runState := rfl
@[simp] theorem State.setReg_faultKind (x : Reg) (b : Byte) : (s.setReg x b).faultKind = s.faultKind := rfl
@[simp] theorem State.setReg_faultOpcode (x : Reg) (b : Byte) : (s.setReg x b).faultOpcode = s.faultOpcode := rfl
@[simp] theorem State.setReg_faultPc (x : Reg) (b : Byte) : (s.setReg x b).faultPc = s.faultPc := rfl
@[simp] theorem State.setReg_cycleRate (x : Reg) (b : Byte) : (s.setReg x b).cycleRate = s.cycleRate := rfl
@[simp] theorem State.setReg_waitKey (x : Reg) (b : Byte) : (s.setReg x b).waitKey = s.waitKey := rfl
@[simp] theorem State.setReg_ir (x : Reg) (b : Byte) : (s.setReg x b).ir = s.ir := rfl
@[simp] theorem State.setReg_keyFeed (x : Reg) (b : Byte) : (s.setReg x b).keyFeed = s.keyFeed := rfl
@[simp] theorem State.setReg_keyDraws (x : Reg) (b : Byte) : (s.setReg x b).keyDraws = s.keyDraws := rfl
@[simp] theorem State.setReg_rndFeed (x : Reg) (b : Byte) : (s.setReg x b).rndFeed = s.rndFeed := rfl
@[simp] theorem State.setReg_rndDraws (x : Reg) (b : Byte) : (s.setReg x b).rndDraws = s.rndDraws := rfl
@[simp] theorem State.setReg_agenda (x : Reg) (b : Byte) : (s.setReg x b).agenda = s.agenda := rfl
@[simp] theorem State.setReg_outputs (x : Reg) (b : Byte) : (s.setReg x b).outputs = s.outputs := rfl

/-! ### setRegAndFlag -/

@[simp] theorem State.setRegAndFlag_i (x : Reg) (b : Byte) (c : Bool) : (s.setRegAndFlag x b c).i = s.i := rfl
@[simp] theorem State.setRegAndFlag_pc (x : Reg) (b : Byte) (c : Bool) : (s.setRegAndFlag x b c).pc = s.pc := rfl
@[simp] theorem State.setRegAndFlag_stack (x : Reg) (b : Byte) (c : Bool) :
    (s.setRegAndFlag x b c).stack = s.stack := rfl
@[simp] theorem State.setRegAndFlag_sp (x : Reg) (b : Byte) (c : Bool) : (s.setRegAndFlag x b c).sp = s.sp := rfl
@[simp] theorem State.setRegAndFlag_dt (x : Reg) (b : Byte) (c : Bool) : (s.setRegAndFlag x b c).dt = s.dt := rfl
@[simp] theorem State.setRegAndFlag_st (x : Reg) (b : Byte) (c : Bool) : (s.setRegAndFlag x b c).st = s.st := rfl
@[simp] theorem State.setRegAndFlag_fb (x : Reg) (b : Byte) (c : Bool) : (s.setRegAndFlag x b c).fb = s.fb := rfl
@[simp] theorem State.setRegAndFlag_mem (x : Reg) (b : Byte) (c : Bool) : (s.setRegAndFlag x b c).mem = s.mem := rfl
@[simp] theorem State.setRegAndFlag_font (x : Reg) (b : Byte) (c : Bool) :
    (s.setRegAndFlag x b c).font = s.font := rfl
@[simp] theorem State.setRegAndFlag_runState (x : Reg) (b : Byte) (c : Bool) :
    (s.setRegAndFlag x b c).runState = s.runState := rfl
@[simp] theorem State.setRegAndFlag_faultKind (x : Reg) (b : Byte) (c : Bool) :
    (s.setRegAndFlag x b c).faultKind = s.faultKind := rfl
@[simp] theorem State.setRegAndFlag_faultOpcode (x : Reg) (b : Byte) (c : Bool) :
    (s.setRegAndFlag x b c).faultOpcode = s.faultOpcode := rfl
@[simp] theorem State.setRegAndFlag_faultPc (x : Reg) (b : Byte) (c : Bool) :
    (s.setRegAndFlag x b c).faultPc = s.faultPc := rfl
@[simp] theorem State.setRegAndFlag_cycleRate (x : Reg) (b : Byte) (c : Bool) :
    (s.setRegAndFlag x b c).cycleRate = s.cycleRate := rfl
@[simp] theorem State.setRegAndFlag_waitKey (x : Reg) (b : Byte) (c : Bool) :
    (s.setRegAndFlag x b c).waitKey = s.waitKey := rfl
@[simp] theorem State.setRegAndFlag_ir (x : Reg) (b : Byte) (c : Bool) : (s.setRegAndFlag x b c).ir = s.ir := rfl
@[simp] theorem State.setRegAndFlag_keyFeed (x : Reg) (b : Byte) (c : Bool) :
    (s.setRegAndFlag x b c).keyFeed = s.keyFeed := rfl
@[simp] theorem State.setRegAndFlag_keyDraws (x : Reg) (b : Byte) (c : Bool) :
    (s.setRegAndFlag x b c).keyDraws = s.keyDraws := rfl
@[simp] theorem State.setRegAndFlag_rndFeed (x : Reg) (b : Byte) (c : Bool) :
    (s.setRegAndFlag x b c).rndFeed = s.rndFeed := rfl
@[simp] theorem State.setRegAndFlag_rndDraws (x : Reg) (b : Byte) (c : Bool) :
    (s.setRegAndFlag x b c).rndDraws = s.rndDraws := rfl
@[simp] theorem State.setRegAndFlag_agenda (x : Reg) (b : Byte) (c : Bool) :
    (s.setRegAndFlag x b c).agenda = s.agenda := rfl
@[simp] theorem State.setRegAndFlag_outputs (x : Reg) (b : Byte) (c : Bool) :
    (s.setRegAndFlag x b c).outputs = s.outputs := rfl

/-! ### setByte -/

@[simp] theorem State.setByte_v (a : Nat) (b : Byte) : (s.setByte a b).v = s.v := rfl
@[simp] theorem State.setByte_i (a : Nat) (b : Byte) : (s.setByte a b).i = s.i := rfl
@[simp] theorem State.setByte_pc (a : Nat) (b : Byte) : (s.setByte a b).pc = s.pc := rfl
@[simp] theorem State.setByte_stack (a : Nat) (b : Byte) : (s.setByte a b).stack = s.stack := rfl
@[simp] theorem State.setByte_sp (a : Nat) (b : Byte) : (s.setByte a b).sp = s.sp := rfl
@[simp] theorem State.setByte_dt (a : Nat) (b : Byte) : (s.setByte a b).dt = s.dt := rfl
@[simp] theorem State.setByte_st (a : Nat) (b : Byte) : (s.setByte a b).st = s.st := rfl
@[simp] theorem State.setByte_fb (a : Nat) (b : Byte) : (s.setByte a b).fb = s.fb := rfl
@[simp] theorem State.setByte_mem (a : Nat) (b : Byte) : (s.setByte a b).mem = Memory.write s.font s.mem a b := rfl
@[simp] theorem State.setByte_font (a : Nat) (b : Byte) : (s.setByte a b).font = s.font := rfl
@[simp] theorem State.setByte_runState (a : Nat) (b : Byte) : (s.setByte a b).runState = s.runState := rfl
@[simp] theorem State.setByte_faultKind (a : Nat) (b : Byte) : (s.setByte a b).faultKind = s.faultKind := rfl
@[simp] theorem State.setByte_faultOpcode (a : Nat) (b : Byte) : (s.setByte a b).faultOpcode = s.faultOpcode := rfl
@[simp] theorem State.setByte_faultPc (a : Nat) (b : Byte) : (s.setByte a b).faultPc = s.faultPc := rfl
@[simp] theorem State.setByte_cycleRate (a : Nat) (b : Byte) : (s.setByte a b).cycleRate = s.cycleRate := rfl
@[simp] theorem State.setByte_waitKey (a : Nat) (b : Byte) : (s.setByte a b).waitKey = s.waitKey := rfl
@[simp] theorem State.setByte_ir (a : Nat) (b : Byte) : (s.setByte a b).ir = s.ir := rfl
@[simp] theorem State.setByte_keyFeed (a : Nat) (b : Byte) : (s.setByte a b).keyFeed = s.keyFeed := rfl
@[simp] theorem State.setByte_keyDraws (a : Nat) (b : Byte) : (s.setByte a b).keyDraws = s.keyDraws := rfl
@[simp] theorem State.setByte_rndFeed (a : Nat) (b : Byte) : (s.setByte a b).rndFeed = s.rndFeed := rfl
@[simp] theorem State.setByte_rndDraws (a : Nat) (b : Byte) : (s.setByte a b).rndDraws = s.rndDraws := rfl
@[simp] theorem State.setByte_agenda (a : Nat) (b : Byte) : (s.setByte a b).agenda = s.agenda := rfl
@[simp] theorem State.setByte_outputs (a : Nat) (b : Byte) : (s.setByte a b).outputs = s.outputs := rfl

/-! ### jump -/

@[simp] theorem State.jump_v (w : Word) : (s.jump w).v = s.v := rfl
@[simp] theorem State.jump_i (w : Word) : (s.jump w).i = s.i := rfl
@[simp] theorem State.jump_pc (w : Word) : (s.jump w).pc = w := rfl
@[simp] theorem State.jump_stack (w : Word) : (s.jump w).stack = s.stack := rfl
@[simp] theorem State.jump_sp (w : Word) : (s.jump w).sp = s.sp := rfl
@[simp] theorem State.jump_dt (w : Word) : (s.jump w).dt = s.dt := rfl
@[simp] theorem State.jump_st (w : Word) : (s.jump w).st = s.st := rfl
@[simp] theorem State.jump_fb (w : Word) : (s.jump w).fb = s.fb := rfl
@[simp] theorem State.jump_mem (w : Word) : (s.jump w).mem = s.mem := rfl
@[simp] theorem State.jump_font (w : Word) : (s.jump w).font = s.font := rfl
@[simp] theorem State.jump_runState (w : Word) : (s.jump w).runState = s.runState := rfl
@[simp] theorem State.jump_faultKind (w : Word) : (s.jump w).faultKind = s.faultKind := rfl
@[simp] theorem State.jump_faultOpcode (w : Word) : (s.jump w).faultOpcode = s.faultOpcode := rfl
@[simp] theorem State.jump_faultPc (w : Word) : (s.jump w).faultPc = s.faultPc := rfl
@[simp] theorem State.jump_cycleRate (w : Word) : (s.jump w).cycleRate = s.cycleRate := rfl
@[simp] theorem State.jump_waitKey (w : Word) : (s.jump w).waitKey = s.waitKey := rfl
@[simp] theorem State.jump_ir (w : Word) : (s.jump w).ir = s.ir := rfl
@[simp] theorem State.jump_keyFeed (w : Word) : (s.jump w).keyFeed = s.keyFeed := rfl
@[simp] theorem State.jump_keyDraws (w : Word) : (s.jump w).keyDraws = s.keyDraws := rfl
@[simp] theorem State.jump_rndFeed (w : Word) : (s.jump w).rndFeed = s.rndFeed := rfl
@[simp] theorem State.jump_rndDraws (w : Word) : (s.jump w).rndDraws = s.rndDraws := rfl
@[simp] theorem State.jump_agenda (w : Word) : (s.jump w).agenda = s.agenda := rfl
@[simp] theorem State.jump_outputs (w : Word) : (s.jump w).outputs = s.outputs := rfl

/-! ### skipIf -/

@[simp] theorem State.skipIf_v (c : Bool) : (s.skipIf c).v = s.v := rfl
@[simp] theorem State.skipIf_i (c : Bool) : (s.skipIf c).i = s.i := rfl
@[simp] theorem State.skipIf_pc (c : Bool) : (s.skipIf c).pc = if c then s.pc + 2 else s.pc := rfl
@[simp] theorem State.skipIf_stack (c : Bool) : (s.skipIf c).stack = s.stack := rfl
@[simp] theorem State.skipIf_sp (c : Bool) : (s.skipIf c).sp = s.sp := rfl
@[simp] theorem State.skipIf_dt (c : Bool) : (s.skipIf c).dt = s.dt := rfl
@[simp] theorem State.skipIf_st (c : Bool) : (s.skipIf c).st = s.st := rfl
@[simp] theorem State.skipIf_fb (c : Bool) : (s.skipIf c).fb = s.fb := rfl
@[simp] theorem State.skipIf_mem (c : Bool) : (s.skipIf c).mem = s.mem := rfl
@[simp] theorem State.skipIf_font (c : Bool) : (s.skipIf c).font = s.font := rfl
@[simp] theorem State.skipIf_runState (c : Bool) : (s.skipIf c).runState = s.runState := rfl
@[simp] theorem State.skipIf_faultKind (c : Bool) : (s.skipIf c).faultKind = s.faultKind := rfl
@[simp] theorem State.skipIf_faultOpcode (c : Bool) : (s.skipIf c).faultOpcode = s.faultOpcode := rfl
@[simp] theorem State.skipIf_faultPc (c : Bool) : (s.skipIf c).faultPc = s.faultPc := rfl
@[simp] theorem State.skipIf_cycleRate (c : Bool) : (s.skipIf c).cycleRate = s.cycleRate := rfl
@[simp] theorem State.skipIf_waitKey (c : Bool) : (s.skipIf c).waitKey = s.waitKey := rfl
@[simp] theorem State.skipIf_ir (c : Bool) : (s.skipIf c).ir = s.ir := rfl
@[simp] theorem State.skipIf_keyFeed (c : Bool) : (s.skipIf c).keyFeed = s.keyFeed := rfl
@[simp] theorem State.skipIf_keyDraws (c : Bool) : (s.skipIf c).keyDraws = s.keyDraws := rfl
@[simp] theorem State.skipIf_rndFeed (c : Bool) : (s.skipIf c).rndFeed = s.rndFeed := rfl
@[simp] theorem State.skipIf_rndDraws (c : Bool) : (s.skipIf c).rndDraws = s.rndDraws := rfl
@[simp] theorem State.skipIf_agenda (c : Bool) : (s.skipIf c).agenda = s.agenda := rfl
@[simp] theorem State.skipIf_outputs (c : Bool) : (s.skipIf c).outputs = s.outputs := rfl

/-! ### fetched -/

@[simp] theorem State.fetched_v (w : Word) : (s.fetched w).v = s.v := rfl
@[simp] theorem State.fetched_i (w : Word) : (s.fetched w).i = s.i := rfl
@[simp] theorem State.fetched_pc (w : Word) : (s.fetched w).pc = s.pc + 2 := rfl
@[simp] theorem State.fetched_stack (w : Word) : (s.fetched w).stack = s.stack := rfl
@[simp] theorem State.fetched_sp (w : Word) : (s.fetched w).sp = s.sp := rfl
@[simp] theorem State.fetched_dt (w : Word) : (s.fetched w).dt = s.dt := rfl
@[simp] theorem State.fetched_st (w : Word) : (s.fetched w).st = s.st := rfl
@[simp] theorem State.fetched_fb (w : Word) : (s.fetched w).fb = s.fb := rfl
@[simp] theorem State.fetched_mem (w : Word) : (s.fetched w).mem = s.mem := rfl
@[simp] theorem State.fetched_font (w : Word) : (s.fetched w).font = s.font := rfl
@[simp] theorem State.fetched_runState (w : Word) : (s.fetched w).runState = s.runState := rfl
@[simp] theorem State.fetched_faultKind (w : Word) : (s.fetched w).faultKind = s.faultKind := rfl
@[simp] theorem State.fetched_faultOpcode (w : Word) : (s.fetched w).faultOpcode = s.faultOpcode := rfl
@[simp] theorem State.fetched_faultPc (w : Word) : (s.fetched w).faultPc = s.faultPc := rfl
@[simp] theorem State.fetched_cycleRate (w : Word) : (s.fetched w).cycleRate = s.cycleRate := rfl
@[simp] theorem State.fetched_waitKey (w : Word) : (s.fetched w).waitKey = s.waitKey := rfl
@[simp] theorem State.fetched_ir (w : Word) : (s.fetched w).ir = w := rfl
@[simp] theorem State.fetched_keyFeed (w : Word) : (s.fetched w).keyFeed = s.keyFeed := rfl
@[simp] theorem State.fetched_keyDraws (w : Word) : (s.fetched w).keyDraws = s.keyDraws := rfl
@[simp] theorem State.fetched_rndFeed (w : Word) : (s.fetched w).rndFeed = s.rndFeed := rfl
@[simp] theorem State.fetched_rndDraws (w : Word) : (s.fetched w).rndDraws = s.rndDraws := rfl
@[simp] theorem State.fetched_agenda (w : Word) : (s.fetched w).agenda = s.agenda := rfl
@[simp] theorem State.fetched_outputs (w : Word) : (s.fetched w).outputs = s.outputs := rfl

/-! ### keyTaken -/

@[simp] theorem State.keyTaken_v : (s.keyTaken).v = s.v := rfl
@[simp] theorem State.keyTaken_i : (s.keyTaken).i = s.i := rfl
@[simp] theorem State.keyTaken_pc : (s.keyTaken).pc = s.pc := rfl
@[simp] theorem State.keyTaken_stack : (s.keyTaken).stack = s.stack := rfl
@[simp] theorem State.keyTaken_sp : (s.keyTaken).sp = s.sp := rfl
@[simp] theorem State.keyTaken_dt : (s.keyTaken).dt = s.dt := rfl
@[simp] theorem State.keyTaken_st : (s.keyTaken).st = s.st := rfl
@[simp] theorem State.keyTaken_fb : (s.keyTaken).fb = s.fb := rfl
@[simp] theorem State.keyTaken_mem : (s.keyTaken).mem = s.mem := rfl
@[simp] theorem State.keyTaken_font : (s.keyTaken).font = s.font := rfl
@[simp] theorem State.keyTaken_runState : (s.keyTaken).runState = s.runState := rfl
@[simp] theorem State.keyTaken_faultKind : (s.keyTaken).faultKind = s.faultKind := rfl
@[simp] theorem State.keyTaken_faultOpcode : (s.keyTaken).faultOpcode = s.faultOpcode := rfl
@[simp] theorem State.keyTaken_faultPc : (s.keyTaken).faultPc = s.faultPc := rfl
@[simp] theorem State.keyTaken_cycleRate : (s.keyTaken).cycleRate = s.cycleRate := rfl
@[simp] theorem State.keyTaken_waitKey : (s.keyTaken).waitKey = s.waitKey := rfl
@[simp] theorem State.keyTaken_ir : (s.keyTaken).ir = s.ir := rfl
@[simp] theorem State.keyTaken_keyFeed : (s.keyTaken).keyFeed = s.keyFeed.tail := rfl
@[simp] theorem State.keyTaken_keyDraws : (s.keyTaken).keyDraws = s.keyDraws + 1 := rfl
@[simp] theorem State.keyTaken_rndFeed : (s.keyTaken).rndFeed = s.rndFeed := rfl
@[simp] theorem State.keyTaken_rndDraws : (s.keyTaken).rndDraws = s.rndDraws := rfl
@[simp] theorem State.keyTaken_agenda : (s.keyTaken).agenda = s.agenda := rfl
@[simp] theorem State.keyTaken_outputs : (s.keyTaken).outputs = s.outputs := rfl

/-! ### randomTaken -/

@[simp] theorem State.randomTaken_v : (s.randomTaken).v = s.v := rfl
@[simp] theorem State.randomTaken_i : (s.randomTaken).i = s.i := rfl
@[simp] theorem State.randomTaken_pc : (s.randomTaken).pc = s.pc := rfl
@[simp] theorem State.randomTaken_stack : (s.randomTaken).stack = s.stack := rfl
@[simp] theorem State.randomTaken_sp : (s.randomTaken).sp = s.sp := rfl
@[simp] theorem State.randomTaken_dt : (s.randomTaken).dt = s.dt := rfl
@[simp] theorem State.randomTaken_st : (s.randomTaken).st = s.st := rfl
@[simp] theorem State.randomTaken_fb : (s.randomTaken).fb = s.fb := rfl
@[simp] theorem State.randomTaken_mem : (s.randomTaken).mem = s.mem := rfl
@[simp] theorem State.randomTaken_font : (s.randomTaken).font = s.font := rfl
@[simp] theorem State.randomTaken_runState : (s.randomTaken).runState = s.runState := rfl
@[simp] theorem State.randomTaken_faultKind : (s.randomTaken).faultKind = s.faultKind := rfl
@[simp] theorem State.randomTaken_faultOpcode : (s.randomTaken).faultOpcode = s.faultOpcode := rfl
@[simp] theorem State.randomTaken_faultPc : (s.randomTaken).faultPc = s.faultPc := rfl
@[simp] theorem State.randomTaken_cycleRate : (s.randomTaken).cycleRate = s.cycleRate := rfl
@[simp] theorem State.randomTaken_waitKey : (s.randomTaken).waitKey = s.waitKey := rfl
@[simp] theorem State.randomTaken_ir : (s.randomTaken).ir = s.ir := rfl
@[simp] theorem State.randomTaken_keyFeed : (s.randomTaken).keyFeed = s.keyFeed := rfl
@[simp] theorem State.randomTaken_keyDraws : (s.randomTaken).keyDraws = s.keyDraws := rfl
@[simp] theorem State.randomTaken_rndFeed : (s.randomTaken).rndFeed = s.rndFeed.tail := rfl
@[simp] theorem State.randomTaken_rndDraws : (s.randomTaken).rndDraws = s.rndDraws + 1 := rfl
@[simp] theorem State.randomTaken_agenda : (s.randomTaken).agenda = s.agenda := rfl
@[simp] theorem State.randomTaken_outputs : (s.randomTaken).outputs = s.outputs := rfl

/-! ### emit -/

@[simp] theorem State.emit_v (os : List Output) : (s.emit os).v = s.v := rfl
@[simp] theorem State.emit_i (os : List Output) : (s.emit os).i = s.i := rfl
@[simp] theorem State.emit_pc (os : List Output) : (s.emit os).pc = s.pc := rfl
@[simp] theorem State.emit_stack (os : List Output) : (s.emit os).stack = s.stack := rfl
@[simp] theorem State.emit_sp (os : List Output) : (s.emit os).sp = s.sp := rfl
@[simp] theorem State.emit_dt (os : List Output) : (s.emit os).dt = s.dt := rfl
@[simp] theorem State.emit_st (os : List Output) : (s.emit os).st = s.st := rfl
@[simp] theorem State.emit_fb (os : List Output) : (s.emit os).fb = s.fb := rfl
@[simp] theorem State.emit_mem (os : List Output) : (s.emit os).mem = s.mem := rfl
@[simp] theorem State.emit_font (os : List Output) : (s.emit os).font = s.font := rfl
@[simp] theorem State.emit_runState (os : List Output) : (s.emit os).runState = s.runState := rfl
@[simp] theorem State.emit_faultKind (os : List Output) : (s.emit os).faultKind = s.faultKind := rfl
@[simp] theorem State.emit_faultOpcode (os : List Output) : (s.emit os).faultOpcode = s.faultOpcode := rfl
@[simp] theorem State.emit_faultPc (os : List Output) : (s.emit os).faultPc = s.faultPc := rfl
@[simp] theorem State.emit_cycleRate (os : List Output) : (s.emit os).cycleRate = s.cycleRate := rfl
@[simp] theorem State.emit_waitKey (os : List Output) : (s.emit os).waitKey = s.waitKey := rfl
@[simp] theorem State.emit_ir (os : List Output) : (s.emit os).ir = s.ir := rfl
@[simp] theorem State.emit_keyFeed (os : List Output) : (s.emit os).keyFeed = s.keyFeed := rfl
@[simp] theorem State.emit_keyDraws (os : List Output) : (s.emit os).keyDraws = s.keyDraws := rfl
@[simp] theorem State.emit_rndFeed (os : List Output) : (s.emit os).rndFeed = s.rndFeed := rfl
@[simp] theorem State.emit_rndDraws (os : List Output) : (s.emit os).rndDraws = s.rndDraws := rfl
@[simp] theorem State.emit_agenda (os : List Output) : (s.emit os).agenda = s.agenda := rfl
@[simp] theorem State.emit_outputs (os : List Output) : (s.emit os).outputs = s.outputs ++ os := rfl

/-! ### fatalFault -/

@[simp] theorem State.fatalFault_v (k : FaultKind) (op addr : Word) : (s.fatalFault k op addr).v = s.v := rfl
@[simp] theorem State.fatalFault_i (k : FaultKind) (op addr : Word) : (s.fatalFault k op addr).i = s.i := rfl
@[simp] theorem State.fatalFault_pc (k : FaultKind) (op addr : Word) : (s.fatalFault k op addr).pc = s.pc := rfl
@[simp] theorem State.fatalFault_stack (k : FaultKind) (op addr : Word) :
    (s.fatalFault k op addr).stack = s.stack := rfl
@[simp] theorem State.fatalFault_sp (k : FaultKind) (op addr : Word) : (s.fatalFault k op addr).sp = s.sp := rfl
@[simp] theorem State.fatalFault_dt (k : FaultKind) (op addr : Word) : (s.fatalFault k op addr).dt = s.dt := rfl
@[simp] theorem State.fatalFault_st (k : FaultKind) (op addr : Word) : (s.fatalFault k op addr).st = s.st := rfl
@[simp] theorem State.fatalFault_fb (k : FaultKind) (op addr : Word) : (s.fatalFault k op addr).fb = s.fb := rfl
@[simp] theorem State.fatalFault_mem (k : FaultKind) (op addr : Word) : (s.fatalFault k op addr).mem = s.mem := rfl
@[simp] theorem State.fatalFault_font (k : FaultKind) (op addr : Word) : (s.fatalFault k op addr).font = s.font := rfl
@[simp] theorem State.fatalFault_runState (k : FaultKind) (op addr : Word) :
    (s.fatalFault k op addr).runState = .stopped := rfl
@[simp] theorem State.fatalFault_faultKind (k : FaultKind) (op addr : Word) :
    (s.fatalFault k op addr).faultKind = k := rfl
@[simp] theorem State.fatalFault_faultOpcode (k : FaultKind) (op addr : Word) :
    (s.fatalFault k op addr).faultOpcode = op := rfl
@[simp] theorem State.fatalFault_faultPc (k : FaultKind) (op addr : Word) :
    (s.fatalFault k op addr).faultPc = addr := rfl
@[simp] theorem State.fatalFault_cycleRate (k : FaultKind) (op addr : Word) :
    (s.fatalFault k op addr).cycleRate = s.cycleRate := rfl
@[simp] theorem State.fatalFault_waitKey (k : FaultKind) (op addr : Word) :
    (s.fatalFault k op addr).waitKey = false := rfl
@[simp] theorem State.fatalFault_ir (k : FaultKind) (op addr : Word) : (s.fatalFault k op addr).ir = s.ir := rfl
@[simp] theorem State.fatalFault_keyFeed (k : FaultKind) (op addr : Word) :
    (s.fatalFault k op addr).keyFeed = s.keyFeed := rfl
@[simp] theorem State.fatalFault_keyDraws (k : FaultKind) (op addr : Word) :
    (s.fatalFault k op addr).keyDraws = s.keyDraws := rfl
@[simp] theorem State.fatalFault_rndFeed (k : FaultKind) (op addr : Word) :
    (s.fatalFault k op addr).rndFeed = s.rndFeed := rfl
@[simp] theorem State.fatalFault_rndDraws (k : FaultKind) (op addr : Word) :
    (s.fatalFault k op addr).rndDraws = s.rndDraws := rfl
@[simp] theorem State.fatalFault_agenda (k : FaultKind) (op addr : Word) :
    (s.fatalFault k op addr).agenda = s.agenda := rfl
@[simp] theorem State.fatalFault_outputs (k : FaultKind) (op addr : Word) :
    (s.fatalFault k op addr).outputs = s.outputs ++ [.diag k op addr] := rfl

/-! ### raiseIn -/

@[simp] theorem State.raiseIn_v (j : Instr) (k : FaultKind) : (s.raiseIn j k).v = s.v := rfl
@[simp] theorem State.raiseIn_i (j : Instr) (k : FaultKind) : (s.raiseIn j k).i = s.i := rfl
@[simp] theorem State.raiseIn_pc (j : Instr) (k : FaultKind) : (s.raiseIn j k).pc = s.pc := rfl
@[simp] theorem State.raiseIn_stack (j : Instr) (k : FaultKind) : (s.raiseIn j k).stack = s.stack := rfl
@[simp] theorem State.raiseIn_sp (j : Instr) (k : FaultKind) : (s.raiseIn j k).sp = s.sp := rfl
@[simp] theorem State.raiseIn_dt (j : Instr) (k : FaultKind) : (s.raiseIn j k).dt = s.dt := rfl
@[simp] theorem State.raiseIn_st (j : Instr) (k : FaultKind) : (s.raiseIn j k).st = s.st := rfl
@[simp] theorem State.raiseIn_fb (j : Instr) (k : FaultKind) : (s.raiseIn j k).fb = s.fb := rfl
@[simp] theorem State.raiseIn_mem (j : Instr) (k : FaultKind) : (s.raiseIn j k).mem = s.mem := rfl
@[simp] theorem State.raiseIn_font (j : Instr) (k : FaultKind) : (s.raiseIn j k).font = s.font := rfl
@[simp] theorem State.raiseIn_runState (j : Instr) (k : FaultKind) : (s.raiseIn j k).runState = .stopped := rfl
@[simp] theorem State.raiseIn_faultKind (j : Instr) (k : FaultKind) : (s.raiseIn j k).faultKind = k := rfl
@[simp] theorem State.raiseIn_faultOpcode (j : Instr) (k : FaultKind) : (s.raiseIn j k).faultOpcode = encode j := rfl
@[simp] theorem State.raiseIn_faultPc (j : Instr) (k : FaultKind) : (s.raiseIn j k).faultPc = s.pc - 2 := rfl
@[simp] theorem State.raiseIn_cycleRate (j : Instr) (k : FaultKind) : (s.raiseIn j k).cycleRate = s.cycleRate := rfl
@[simp] theorem State.raiseIn_waitKey (j : Instr) (k : FaultKind) : (s.raiseIn j k).waitKey = false := rfl
@[simp] theorem State.raiseIn_ir (j : Instr) (k : FaultKind) : (s.raiseIn j k).ir = s.ir := rfl
@[simp] theorem State.raiseIn_keyFeed (j : Instr) (k : FaultKind) : (s.raiseIn j k).keyFeed = s.keyFeed := rfl
@[simp] theorem State.raiseIn_keyDraws (j : Instr) (k : FaultKind) : (s.raiseIn j k).keyDraws = s.keyDraws := rfl
@[simp] theorem State.raiseIn_rndFeed (j : Instr) (k : FaultKind) : (s.raiseIn j k).rndFeed = s.rndFeed := rfl
@[simp] theorem State.raiseIn_rndDraws (j : Instr) (k : FaultKind) : (s.raiseIn j k).rndDraws = s.rndDraws := rfl
@[simp] theorem State.raiseIn_agenda (j : Instr) (k : FaultKind) : (s.raiseIn j k).agenda = s.agenda := rfl
@[simp] theorem State.raiseIn_outputs (j : Instr) (k : FaultKind) :
    (s.raiseIn j k).outputs = s.outputs ++ [.diag k (encode j) (s.pc - 2)] := rfl

/-! ### setIndex -/

@[simp] theorem State.setIndex_v (a : Addr) : (s.setIndex a).v = s.v := rfl
@[simp] theorem State.setIndex_i (a : Addr) : (s.setIndex a).i = a := rfl
@[simp] theorem State.setIndex_pc (a : Addr) : (s.setIndex a).pc = s.pc := rfl
@[simp] theorem State.setIndex_stack (a : Addr) : (s.setIndex a).stack = s.stack := rfl
@[simp] theorem State.setIndex_sp (a : Addr) : (s.setIndex a).sp = s.sp := rfl
@[simp] theorem State.setIndex_dt (a : Addr) : (s.setIndex a).dt = s.dt := rfl
@[simp] theorem State.setIndex_st (a : Addr) : (s.setIndex a).st = s.st := rfl
@[simp] theorem State.setIndex_fb (a : Addr) : (s.setIndex a).fb = s.fb := rfl
@[simp] theorem State.setIndex_mem (a : Addr) : (s.setIndex a).mem = s.mem := rfl
@[simp] theorem State.setIndex_font (a : Addr) : (s.setIndex a).font = s.font := rfl
@[simp] theorem State.setIndex_runState (a : Addr) : (s.setIndex a).runState = s.runState := rfl
@[simp] theorem State.setIndex_faultKind (a : Addr) : (s.setIndex a).faultKind = s.faultKind := rfl
@[simp] theorem State.setIndex_faultOpcode (a : Addr) : (s.setIndex a).faultOpcode = s.faultOpcode := rfl
@[simp] theorem State.setIndex_faultPc (a : Addr) : (s.setIndex a).faultPc = s.faultPc := rfl
@[simp] theorem State.setIndex_cycleRate (a : Addr) : (s.setIndex a).cycleRate = s.cycleRate := rfl
@[simp] theorem State.setIndex_waitKey (a : Addr) : (s.setIndex a).waitKey = s.waitKey := rfl
@[simp] theorem State.setIndex_ir (a : Addr) : (s.setIndex a).ir = s.ir := rfl
@[simp] theorem State.setIndex_keyFeed (a : Addr) : (s.setIndex a).keyFeed = s.keyFeed := rfl
@[simp] theorem State.setIndex_keyDraws (a : Addr) : (s.setIndex a).keyDraws = s.keyDraws := rfl
@[simp] theorem State.setIndex_rndFeed (a : Addr) : (s.setIndex a).rndFeed = s.rndFeed := rfl
@[simp] theorem State.setIndex_rndDraws (a : Addr) : (s.setIndex a).rndDraws = s.rndDraws := rfl
@[simp] theorem State.setIndex_agenda (a : Addr) : (s.setIndex a).agenda = s.agenda := rfl
@[simp] theorem State.setIndex_outputs (a : Addr) : (s.setIndex a).outputs = s.outputs := rfl

/-! ### enterWait -/

@[simp] theorem State.enterWait_v (w : Word) : (s.enterWait w).v = s.v := rfl
@[simp] theorem State.enterWait_i (w : Word) : (s.enterWait w).i = s.i := rfl
@[simp] theorem State.enterWait_pc (w : Word) : (s.enterWait w).pc = s.pc := rfl
@[simp] theorem State.enterWait_stack (w : Word) : (s.enterWait w).stack = s.stack := rfl
@[simp] theorem State.enterWait_sp (w : Word) : (s.enterWait w).sp = s.sp := rfl
@[simp] theorem State.enterWait_dt (w : Word) : (s.enterWait w).dt = s.dt := rfl
@[simp] theorem State.enterWait_st (w : Word) : (s.enterWait w).st = s.st := rfl
@[simp] theorem State.enterWait_fb (w : Word) : (s.enterWait w).fb = s.fb := rfl
@[simp] theorem State.enterWait_mem (w : Word) : (s.enterWait w).mem = s.mem := rfl
@[simp] theorem State.enterWait_font (w : Word) : (s.enterWait w).font = s.font := rfl
@[simp] theorem State.enterWait_runState (w : Word) : (s.enterWait w).runState = s.runState := rfl
@[simp] theorem State.enterWait_faultKind (w : Word) : (s.enterWait w).faultKind = s.faultKind := rfl
@[simp] theorem State.enterWait_faultOpcode (w : Word) : (s.enterWait w).faultOpcode = s.faultOpcode := rfl
@[simp] theorem State.enterWait_faultPc (w : Word) : (s.enterWait w).faultPc = s.faultPc := rfl
@[simp] theorem State.enterWait_cycleRate (w : Word) : (s.enterWait w).cycleRate = s.cycleRate := rfl
@[simp] theorem State.enterWait_waitKey (w : Word) : (s.enterWait w).waitKey = true := rfl
@[simp] theorem State.enterWait_ir (w : Word) : (s.enterWait w).ir = w := rfl
@[simp] theorem State.enterWait_keyFeed (w : Word) : (s.enterWait w).keyFeed = s.keyFeed := rfl
@[simp] theorem State.enterWait_keyDraws (w : Word) : (s.enterWait w).keyDraws = s.keyDraws := rfl
@[simp] theorem State.enterWait_rndFeed (w : Word) : (s.enterWait w).rndFeed = s.rndFeed := rfl
@[simp] theorem State.enterWait_rndDraws (w : Word) : (s.enterWait w).rndDraws = s.rndDraws := rfl
@[simp] theorem State.enterWait_agenda (w : Word) : (s.enterWait w).agenda = s.agenda := rfl
@[simp] theorem State.enterWait_outputs (w : Word) : (s.enterWait w).outputs = s.outputs := rfl

/-! ### endWait -/

@[simp] theorem State.endWait_v (x : Reg) (k : Key) : (s.endWait x k).v = s.v.set x.toNat (keyByte k) x.isLt := rfl
@[simp] theorem State.endWait_i (x : Reg) (k : Key) : (s.endWait x k).i = s.i := rfl
@[simp] theorem State.endWait_pc (x : Reg) (k : Key) : (s.endWait x k).pc = s.pc := rfl
@[simp] theorem State.endWait_stack (x : Reg) (k : Key) : (s.endWait x k).stack = s.stack := rfl
@[simp] theorem State.endWait_sp (x : Reg) (k : Key) : (s.endWait x k).sp = s.sp := rfl
@[simp] theorem State.endWait_dt (x : Reg) (k : Key) : (s.endWait x k).dt = s.dt := rfl
@[simp] theorem State.endWait_st (x : Reg) (k : Key) : (s.endWait x k).st = s.st := rfl
@[simp] theorem State.endWait_fb (x : Reg) (k : Key) : (s.endWait x k).fb = s.fb := rfl
@[simp] theorem State.endWait_mem (x : Reg) (k : Key) : (s.endWait x k).mem = s.mem := rfl
@[simp] theorem State.endWait_font (x : Reg) (k : Key) : (s.endWait x k).font = s.font := rfl
@[simp] theorem State.endWait_runState (x : Reg) (k : Key) : (s.endWait x k).runState = s.runState := rfl
@[simp] theorem State.endWait_faultKind (x : Reg) (k : Key) : (s.endWait x k).faultKind = s.faultKind := rfl
@[simp] theorem State.endWait_faultOpcode (x : Reg) (k : Key) : (s.endWait x k).faultOpcode = s.faultOpcode := rfl
@[simp] theorem State.endWait_faultPc (x : Reg) (k : Key) : (s.endWait x k).faultPc = s.faultPc := rfl
@[simp] theorem State.endWait_cycleRate (x : Reg) (k : Key) : (s.endWait x k).cycleRate = s.cycleRate := rfl
@[simp] theorem State.endWait_waitKey (x : Reg) (k : Key) : (s.endWait x k).waitKey = false := rfl
@[simp] theorem State.endWait_ir (x : Reg) (k : Key) : (s.endWait x k).ir = s.ir := rfl
@[simp] theorem State.endWait_keyFeed (x : Reg) (k : Key) : (s.endWait x k).keyFeed = s.keyFeed := rfl
@[simp] theorem State.endWait_keyDraws (x : Reg) (k : Key) : (s.endWait x k).keyDraws = s.keyDraws := rfl
@[simp] theorem State.endWait_rndFeed (x : Reg) (k : Key) : (s.endWait x k).rndFeed = s.rndFeed := rfl
@[simp] theorem State.endWait_rndDraws (x : Reg) (k : Key) : (s.endWait x k).rndDraws = s.rndDraws := rfl
@[simp] theorem State.endWait_agenda (x : Reg) (k : Key) : (s.endWait x k).agenda = s.agenda := rfl
@[simp] theorem State.endWait_outputs (x : Reg) (k : Key) : (s.endWait x k).outputs = s.outputs := rfl

/-! ### drawn -/

@[simp] theorem State.drawn_i (r : Framebuffer × Bool) : (s.drawn r).i = s.i := rfl
@[simp] theorem State.drawn_pc (r : Framebuffer × Bool) : (s.drawn r).pc = s.pc := rfl
@[simp] theorem State.drawn_stack (r : Framebuffer × Bool) : (s.drawn r).stack = s.stack := rfl
@[simp] theorem State.drawn_sp (r : Framebuffer × Bool) : (s.drawn r).sp = s.sp := rfl
@[simp] theorem State.drawn_dt (r : Framebuffer × Bool) : (s.drawn r).dt = s.dt := rfl
@[simp] theorem State.drawn_st (r : Framebuffer × Bool) : (s.drawn r).st = s.st := rfl
@[simp] theorem State.drawn_fb (r : Framebuffer × Bool) : (s.drawn r).fb = r.1 := rfl
@[simp] theorem State.drawn_mem (r : Framebuffer × Bool) : (s.drawn r).mem = s.mem := rfl
@[simp] theorem State.drawn_font (r : Framebuffer × Bool) : (s.drawn r).font = s.font := rfl
@[simp] theorem State.drawn_runState (r : Framebuffer × Bool) : (s.drawn r).runState = s.runState := rfl
@[simp] theorem State.drawn_faultKind (r : Framebuffer × Bool) : (s.drawn r).faultKind = s.faultKind := rfl
@[simp] theorem State.drawn_faultOpcode (r : Framebuffer × Bool) : (s.drawn r).faultOpcode = s.faultOpcode := rfl
@[simp] theorem State.drawn_faultPc (r : Framebuffer × Bool) : (s.drawn r).faultPc = s.faultPc := rfl
@[simp] theorem State.drawn_cycleRate (r : Framebuffer × Bool) : (s.drawn r).cycleRate = s.cycleRate := rfl
@[simp] theorem State.drawn_waitKey (r : Framebuffer × Bool) : (s.drawn r).waitKey = s.waitKey := rfl
@[simp] theorem State.drawn_ir (r : Framebuffer × Bool) : (s.drawn r).ir = s.ir := rfl
@[simp] theorem State.drawn_keyFeed (r : Framebuffer × Bool) : (s.drawn r).keyFeed = s.keyFeed := rfl
@[simp] theorem State.drawn_keyDraws (r : Framebuffer × Bool) : (s.drawn r).keyDraws = s.keyDraws := rfl
@[simp] theorem State.drawn_rndFeed (r : Framebuffer × Bool) : (s.drawn r).rndFeed = s.rndFeed := rfl
@[simp] theorem State.drawn_rndDraws (r : Framebuffer × Bool) : (s.drawn r).rndDraws = s.rndDraws := rfl
@[simp] theorem State.drawn_agenda (r : Framebuffer × Bool) : (s.drawn r).agenda = s.agenda := rfl
@[simp] theorem State.drawn_outputs (r : Framebuffer × Bool) : (s.drawn r).outputs = s.outputs := rfl

/-! ### tick -/

@[simp] theorem State.tick_v : (s.tick).v = s.v := rfl
@[simp] theorem State.tick_i : (s.tick).i = s.i := rfl
@[simp] theorem State.tick_pc : (s.tick).pc = s.pc := rfl
@[simp] theorem State.tick_stack : (s.tick).stack = s.stack := rfl
@[simp] theorem State.tick_sp : (s.tick).sp = s.sp := rfl
@[simp] theorem State.tick_dt : (s.tick).dt = countDown s.dt := rfl
@[simp] theorem State.tick_st : (s.tick).st = countDown s.st := rfl
@[simp] theorem State.tick_fb : (s.tick).fb = s.fb := rfl
@[simp] theorem State.tick_mem : (s.tick).mem = s.mem := rfl
@[simp] theorem State.tick_font : (s.tick).font = s.font := rfl
@[simp] theorem State.tick_runState : (s.tick).runState = s.runState := rfl
@[simp] theorem State.tick_faultKind : (s.tick).faultKind = s.faultKind := rfl
@[simp] theorem State.tick_faultOpcode : (s.tick).faultOpcode = s.faultOpcode := rfl
@[simp] theorem State.tick_faultPc : (s.tick).faultPc = s.faultPc := rfl
@[simp] theorem State.tick_cycleRate : (s.tick).cycleRate = s.cycleRate := rfl
@[simp] theorem State.tick_waitKey : (s.tick).waitKey = s.waitKey := rfl
@[simp] theorem State.tick_ir : (s.tick).ir = s.ir := rfl
@[simp] theorem State.tick_keyFeed : (s.tick).keyFeed = s.keyFeed := rfl
@[simp] theorem State.tick_keyDraws : (s.tick).keyDraws = s.keyDraws := rfl
@[simp] theorem State.tick_rndFeed : (s.tick).rndFeed = s.rndFeed := rfl
@[simp] theorem State.tick_rndDraws : (s.tick).rndDraws = s.rndDraws := rfl
@[simp] theorem State.tick_agenda : (s.tick).agenda = s.agenda := rfl
@[simp] theorem State.tick_outputs : (s.tick).outputs = s.outputs ++ if s.st = 1 then [.toneStop] else [] := rfl

/-! ### pause -/

@[simp] theorem State.pause_v : (s.pause).v = s.v := rfl
@[simp] theorem State.pause_i : (s.pause).i = s.i := rfl
@[simp] theorem State.pause_pc : (s.pause).pc = s.pc := rfl
@[simp] theorem State.pause_stack : (s.pause).stack = s.stack := rfl
@[simp] theorem State.pause_sp : (s.pause).sp = s.sp := rfl
@[simp] theorem State.pause_dt : (s.pause).dt = s.dt := rfl
@[simp] theorem State.pause_st : (s.pause).st = s.st := rfl
@[simp] theorem State.pause_fb : (s.pause).fb = s.fb := rfl
@[simp] theorem State.pause_mem : (s.pause).mem = s.mem := rfl
@[simp] theorem State.pause_font : (s.pause).font = s.font := rfl
@[simp] theorem State.pause_runState :
    (s.pause).runState = if s.runState = .running then .paused else s.runState := rfl
@[simp] theorem State.pause_faultKind : (s.pause).faultKind = s.faultKind := rfl
@[simp] theorem State.pause_faultOpcode : (s.pause).faultOpcode = s.faultOpcode := rfl
@[simp] theorem State.pause_faultPc : (s.pause).faultPc = s.faultPc := rfl
@[simp] theorem State.pause_cycleRate : (s.pause).cycleRate = s.cycleRate := rfl
@[simp] theorem State.pause_waitKey : (s.pause).waitKey = s.waitKey := rfl
@[simp] theorem State.pause_ir : (s.pause).ir = s.ir := rfl
@[simp] theorem State.pause_keyFeed : (s.pause).keyFeed = s.keyFeed := rfl
@[simp] theorem State.pause_keyDraws : (s.pause).keyDraws = s.keyDraws := rfl
@[simp] theorem State.pause_rndFeed : (s.pause).rndFeed = s.rndFeed := rfl
@[simp] theorem State.pause_rndDraws : (s.pause).rndDraws = s.rndDraws := rfl
@[simp] theorem State.pause_agenda : (s.pause).agenda = s.agenda := rfl
@[simp] theorem State.pause_outputs : (s.pause).outputs = s.outputs := rfl

/-! ### unpause -/

@[simp] theorem State.unpause_v : (s.unpause).v = s.v := rfl
@[simp] theorem State.unpause_i : (s.unpause).i = s.i := rfl
@[simp] theorem State.unpause_pc : (s.unpause).pc = s.pc := rfl
@[simp] theorem State.unpause_stack : (s.unpause).stack = s.stack := rfl
@[simp] theorem State.unpause_sp : (s.unpause).sp = s.sp := rfl
@[simp] theorem State.unpause_dt : (s.unpause).dt = s.dt := rfl
@[simp] theorem State.unpause_st : (s.unpause).st = s.st := rfl
@[simp] theorem State.unpause_fb : (s.unpause).fb = s.fb := rfl
@[simp] theorem State.unpause_mem : (s.unpause).mem = s.mem := rfl
@[simp] theorem State.unpause_font : (s.unpause).font = s.font := rfl
@[simp] theorem State.unpause_runState :
    (s.unpause).runState = if s.runState = .paused then .running else s.runState := rfl
@[simp] theorem State.unpause_faultKind : (s.unpause).faultKind = s.faultKind := rfl
@[simp] theorem State.unpause_faultOpcode : (s.unpause).faultOpcode = s.faultOpcode := rfl
@[simp] theorem State.unpause_faultPc : (s.unpause).faultPc = s.faultPc := rfl
@[simp] theorem State.unpause_cycleRate : (s.unpause).cycleRate = s.cycleRate := rfl
@[simp] theorem State.unpause_waitKey : (s.unpause).waitKey = s.waitKey := rfl
@[simp] theorem State.unpause_ir : (s.unpause).ir = s.ir := rfl
@[simp] theorem State.unpause_keyFeed : (s.unpause).keyFeed = s.keyFeed := rfl
@[simp] theorem State.unpause_keyDraws : (s.unpause).keyDraws = s.keyDraws := rfl
@[simp] theorem State.unpause_rndFeed : (s.unpause).rndFeed = s.rndFeed := rfl
@[simp] theorem State.unpause_rndDraws : (s.unpause).rndDraws = s.rndDraws := rfl
@[simp] theorem State.unpause_agenda : (s.unpause).agenda = s.agenda := rfl
@[simp] theorem State.unpause_outputs : (s.unpause).outputs = s.outputs := rfl

/-! ### halted -/

@[simp] theorem State.halted_v : (s.halted).v = s.v := rfl
@[simp] theorem State.halted_i : (s.halted).i = s.i := rfl
@[simp] theorem State.halted_pc : (s.halted).pc = s.pc := rfl
@[simp] theorem State.halted_stack : (s.halted).stack = s.stack := rfl
@[simp] theorem State.halted_sp : (s.halted).sp = s.sp := rfl
@[simp] theorem State.halted_dt : (s.halted).dt = s.dt := rfl
@[simp] theorem State.halted_st : (s.halted).st = s.st := rfl
@[simp] theorem State.halted_fb : (s.halted).fb = s.fb := rfl
@[simp] theorem State.halted_mem : (s.halted).mem = s.mem := rfl
@[simp] theorem State.halted_font : (s.halted).font = s.font := rfl
@[simp] theorem State.halted_runState : (s.halted).runState = .stopped := rfl
@[simp] theorem State.halted_faultKind : (s.halted).faultKind = s.faultKind := rfl
@[simp] theorem State.halted_faultOpcode : (s.halted).faultOpcode = s.faultOpcode := rfl
@[simp] theorem State.halted_faultPc : (s.halted).faultPc = s.faultPc := rfl
@[simp] theorem State.halted_cycleRate : (s.halted).cycleRate = s.cycleRate := rfl
@[simp] theorem State.halted_waitKey : (s.halted).waitKey = false := rfl
@[simp] theorem State.halted_ir : (s.halted).ir = 0 := rfl
@[simp] theorem State.halted_keyFeed : (s.halted).keyFeed = s.keyFeed := rfl
@[simp] theorem State.halted_keyDraws : (s.halted).keyDraws = s.keyDraws := rfl
@[simp] theorem State.halted_rndFeed : (s.halted).rndFeed = s.rndFeed := rfl
@[simp] theorem State.halted_rndDraws : (s.halted).rndDraws = s.rndDraws := rfl
@[simp] theorem State.halted_agenda : (s.halted).agenda = s.agenda := rfl
@[simp] theorem State.halted_outputs : (s.halted).outputs = s.outputs := rfl

/-! ### unimplemented -/

@[simp] theorem State.unimplemented_v (op addr : Word) : (s.unimplemented op addr).v = s.v := rfl
@[simp] theorem State.unimplemented_i (op addr : Word) : (s.unimplemented op addr).i = s.i := rfl
@[simp] theorem State.unimplemented_pc (op addr : Word) : (s.unimplemented op addr).pc = s.pc := rfl
@[simp] theorem State.unimplemented_stack (op addr : Word) : (s.unimplemented op addr).stack = s.stack := rfl
@[simp] theorem State.unimplemented_sp (op addr : Word) : (s.unimplemented op addr).sp = s.sp := rfl
@[simp] theorem State.unimplemented_dt (op addr : Word) : (s.unimplemented op addr).dt = s.dt := rfl
@[simp] theorem State.unimplemented_st (op addr : Word) : (s.unimplemented op addr).st = s.st := rfl
@[simp] theorem State.unimplemented_fb (op addr : Word) : (s.unimplemented op addr).fb = s.fb := rfl
@[simp] theorem State.unimplemented_mem (op addr : Word) : (s.unimplemented op addr).mem = s.mem := rfl
@[simp] theorem State.unimplemented_font (op addr : Word) : (s.unimplemented op addr).font = s.font := rfl
@[simp] theorem State.unimplemented_runState (op addr : Word) : (s.unimplemented op addr).runState = s.runState := rfl
@[simp] theorem State.unimplemented_faultKind (op addr : Word) :
    (s.unimplemented op addr).faultKind = s.faultKind := rfl
@[simp] theorem State.unimplemented_faultOpcode (op addr : Word) :
    (s.unimplemented op addr).faultOpcode = s.faultOpcode := rfl
@[simp] theorem State.unimplemented_faultPc (op addr : Word) : (s.unimplemented op addr).faultPc = s.faultPc := rfl
@[simp] theorem State.unimplemented_cycleRate (op addr : Word) :
    (s.unimplemented op addr).cycleRate = s.cycleRate := rfl
@[simp] theorem State.unimplemented_waitKey (op addr : Word) : (s.unimplemented op addr).waitKey = s.waitKey := rfl
@[simp] theorem State.unimplemented_ir (op addr : Word) : (s.unimplemented op addr).ir = s.ir := rfl
@[simp] theorem State.unimplemented_keyFeed (op addr : Word) : (s.unimplemented op addr).keyFeed = s.keyFeed := rfl
@[simp] theorem State.unimplemented_keyDraws (op addr : Word) : (s.unimplemented op addr).keyDraws = s.keyDraws := rfl
@[simp] theorem State.unimplemented_rndFeed (op addr : Word) : (s.unimplemented op addr).rndFeed = s.rndFeed := rfl
@[simp] theorem State.unimplemented_rndDraws (op addr : Word) : (s.unimplemented op addr).rndDraws = s.rndDraws := rfl
@[simp] theorem State.unimplemented_agenda (op addr : Word) : (s.unimplemented op addr).agenda = s.agenda := rfl
@[simp] theorem State.unimplemented_outputs (op addr : Word) :
    (s.unimplemented op addr).outputs = s.outputs ++ [.diag .unimplementedInstruction op addr] := rfl

/-! ### begun -/

@[simp] theorem State.begun_v : (s.begun).v = s.v := rfl
@[simp] theorem State.begun_i : (s.begun).i = s.i := rfl
@[simp] theorem State.begun_pc : (s.begun).pc = s.pc := rfl
@[simp] theorem State.begun_stack : (s.begun).stack = s.stack := rfl
@[simp] theorem State.begun_sp : (s.begun).sp = s.sp := rfl
@[simp] theorem State.begun_dt : (s.begun).dt = s.dt := rfl
@[simp] theorem State.begun_st : (s.begun).st = s.st := rfl
@[simp] theorem State.begun_fb : (s.begun).fb = s.fb := rfl
@[simp] theorem State.begun_mem : (s.begun).mem = s.mem := rfl
@[simp] theorem State.begun_font : (s.begun).font = s.font := rfl
@[simp] theorem State.begun_runState : (s.begun).runState = s.runState := rfl
@[simp] theorem State.begun_faultKind : (s.begun).faultKind = s.faultKind := rfl
@[simp] theorem State.begun_faultOpcode : (s.begun).faultOpcode = s.faultOpcode := rfl
@[simp] theorem State.begun_faultPc : (s.begun).faultPc = s.faultPc := rfl
@[simp] theorem State.begun_cycleRate : (s.begun).cycleRate = s.cycleRate := rfl
@[simp] theorem State.begun_waitKey : (s.begun).waitKey = s.waitKey := rfl
@[simp] theorem State.begun_ir : (s.begun).ir = s.ir := rfl
@[simp] theorem State.begun_keyFeed : (s.begun).keyFeed = s.keyFeed := rfl
@[simp] theorem State.begun_keyDraws : (s.begun).keyDraws = s.keyDraws := rfl
@[simp] theorem State.begun_rndFeed : (s.begun).rndFeed = s.rndFeed := rfl
@[simp] theorem State.begun_rndDraws : (s.begun).rndDraws = s.rndDraws := rfl
@[simp] theorem State.begun_agenda : (s.begun).agenda = s.agenda.tail := rfl
@[simp] theorem State.begun_outputs : (s.begun).outputs = s.outputs := rfl

end Sys2Proof.Machine
end

