-- ==== Sys2Proof/Laws/Memory.lean ====
section
/-! SUPPORT. Memory and framebuffer: reads after writes, the canonical form, extensionality. -/

namespace Sys2Proof.Machine

/-! ### Memory -/

theorem Memory.unlisted_of_ge (font : Font) {a : Nat} (h : 80 ≤ a) : Memory.unlisted font a = 0 := by
  simp [Memory.unlisted, Nat.not_lt.mpr h]

/-- Reading below the first listed address gives what the address reads as unlisted. -/
theorem Memory.read_of_wfFrom (font : Font) {low a : Nat} {m : List Host.Cell} (h : Memory.wfFrom font low m = true)
    (ha : a < low) : Memory.read font m a = Memory.unlisted font a := by
  cases m with
  | nil => rfl
  | cons c rest =>
    obtain ⟨k, b⟩ := c
    simp only [Memory.wfFrom, Bool.and_eq_true, decide_eq_true_eq] at h
    have : a < k := by omega
    simp [Memory.read, this]

/-- A read after an insertion: the byte put in at its address, the old byte anywhere else. -/
theorem Memory.read_insert (font : Font) (a k : Nat) (b : Byte) :
    ∀ (m : List Host.Cell) (low : Nat), Memory.wfFrom font low m = true →
      Memory.read font (Memory.insert font m a b) k = if k = a then b else Memory.read font m k := by
  intro m
  induction m with
  | nil =>
    intro low _
    by_cases hb : b = Memory.unlisted font a
    · by_cases hk : k = a <;> simp_all [Memory.insert, Memory.read]
    · by_cases hk : k = a <;> simp_all [Memory.insert, Memory.read]
  | cons c rest ih =>
    obtain ⟨j, c⟩ := c
    intro low h
    simp only [Memory.wfFrom, Bool.and_eq_true, decide_eq_true_eq] at h
    obtain ⟨⟨⟨_, _⟩, hne⟩, hrest⟩ := h
    have hbelow : ∀ i, i ≤ j → Memory.read font rest i = Memory.unlisted font i := fun i hi =>
      Memory.read_of_wfFrom font hrest (by omega)
    by_cases h1 : a < j
    · by_cases hb : b = Memory.unlisted font a <;> by_cases hk : k = a <;>
        simp_all [Memory.insert, Memory.read]
      intro h2 h3
      omega
    · by_cases h2 : a = j
      · subst h2
        by_cases hb : b = Memory.unlisted font a
        · by_cases hk : k = a
          · simp_all [Memory.insert]
          · by_cases hlt : k < a <;> simp_all [Memory.insert, Memory.read]
            exact hbelow k (by omega)
        · by_cases hk : k = a <;> simp_all [Memory.insert, Memory.read]
      · have hka : k < j → ¬ k = a := by omega
        by_cases hlt : k < j
        · simp [Memory.insert, Memory.read, h1, h2, hlt, hka hlt]
        · by_cases hkj : k = j
          · have : ¬ j = a := fun h => h2 h.symm
            simp [Memory.insert, Memory.read, h1, h2, hkj, this]
          · simp [Memory.insert, Memory.read, h1, h2, hlt, hkj, ih _ hrest]

theorem Memory.insert_wfFrom (font : Font) (a : Nat) (b : Byte) (ha : a < Config.memSize) :
    ∀ (m : List Host.Cell) (low : Nat), low ≤ a → Memory.wfFrom font low m = true →
      Memory.wfFrom font low (Memory.insert font m a b) = true := by
  have weaken : ∀ (m : List Host.Cell) (l l' : Nat), l' ≤ l → Memory.wfFrom font l m = true →
      Memory.wfFrom font l' m = true := by
    intro m l l' hl h
    cases m with
    | nil => rfl
    | cons c rest =>
      obtain ⟨k, c⟩ := c
      simp only [Memory.wfFrom, Bool.and_eq_true, decide_eq_true_eq] at h ⊢
      exact ⟨⟨⟨by omega, h.1.1.2⟩, h.1.2⟩, h.2⟩
  intro m
  induction m with
  | nil =>
    intro low hlow _
    by_cases hb : b = Memory.unlisted font a <;> simp_all [Memory.insert, Memory.wfFrom]
  | cons c rest ih =>
    obtain ⟨k, c⟩ := c
    intro low hlow h
    have h' := h
    simp only [Memory.wfFrom, Bool.and_eq_true, decide_eq_true_eq] at h
    obtain ⟨⟨⟨hk, hk'⟩, hne⟩, hrest⟩ := h
    by_cases h1 : a < k
    · by_cases hb : b = Memory.unlisted font a
      · simpa [Memory.insert, h1, hb] using h'
      · have hak : a + 1 ≤ k := h1
        simp only [Memory.insert, h1, hb, if_true, if_false, Memory.wfFrom, Bool.and_eq_true, decide_eq_true_eq]
        exact ⟨⟨⟨hlow, ha⟩, by simpa using hb⟩, ⟨⟨⟨hak, hk'⟩, hne⟩, hrest⟩⟩
    · by_cases h2 : a = k
      · subst h2
        by_cases hb : b = Memory.unlisted font a
        · simpa [Memory.insert, hb] using weaken rest (a + 1) low (by omega) hrest
        · simp only [Memory.insert, hb, if_true, if_false, Nat.lt_irrefl, Memory.wfFrom, Bool.and_eq_true,
            decide_eq_true_eq]
          exact ⟨⟨⟨hlow, ha⟩, by simpa using hb⟩, hrest⟩
      · simp only [Memory.insert, h1, h2, if_false, Memory.wfFrom, Bool.and_eq_true, decide_eq_true_eq]
        exact ⟨⟨⟨hk, hk'⟩, hne⟩, ih (k + 1) (by omega) hrest⟩

/-- A write keeps the canonical form. -/
theorem Memory.write_wf (font : Font) {m : List Host.Cell} (a : Nat) (b : Byte) (h : Memory.wf font m = true) :
    Memory.wf font (Memory.write font m a b) = true := by
  unfold Memory.write
  split
  · exact Memory.insert_wfFrom font a b ‹_› m 0 (Nat.zero_le a) h
  · exact h

/-- A read after a write. -/
theorem Memory.read_write (font : Font) {m : List Host.Cell} (a k : Nat) (b : Byte) (h : Memory.wf font m = true)
    (ha : a < Config.memSize) :
    Memory.read font (Memory.write font m a b) k = if k = a then b else Memory.read font m k := by
  rw [Memory.write, if_pos ha, Memory.read_insert font a k b m 0 h]

/-- An image is in canonical form. -/
theorem Memory.image_wfFrom (font : Font) :
    ∀ (bytes : List Byte) (a low : Nat), low ≤ a → a + bytes.length ≤ Config.memSize →
      Memory.wfFrom font low (Memory.image font a bytes) = true := by
  intro bytes
  induction bytes with
  | nil => intros; rfl
  | cons b rest ih =>
    intro a low hlow hlen
    simp only [List.length_cons] at hlen
    by_cases hb : b = Memory.unlisted font a
    · simpa [Memory.image, hb] using ih (a + 1) low (by omega) (by omega)
    · simp only [Memory.image, hb, if_false, Memory.wfFrom, Bool.and_eq_true, decide_eq_true_eq]
      exact ⟨⟨⟨hlow, by omega⟩, by simpa using hb⟩, ih (a + 1) (a + 1) (by omega) (by omega)⟩

theorem Memory.image_wf (font : Font) (a : Nat) (bytes : List Byte) (h : a + bytes.length ≤ Config.memSize) :
    Memory.wf font (Memory.image font a bytes) = true := Memory.image_wfFrom font bytes a 0 (Nat.zero_le a) h

/-- Reading an image: the bytes from `a` up, the reset contents everywhere else. -/
theorem Memory.read_image (font : Font) :
    ∀ (bytes : List Byte) (a k : Nat),
      Memory.read font (Memory.image font a bytes) k =
        if h : a ≤ k ∧ k - a < bytes.length then bytes[k - a]'h.2 else Memory.unlisted font k := by
  intro bytes
  induction bytes with
  | nil => intro a k; simp [Memory.image, Memory.read]
  | cons b rest ih =>
    intro a k
    have step : Memory.read font (Memory.image font a (b :: rest)) k =
        if k = a then b else Memory.read font (Memory.image font (a + 1) rest) k := by
      by_cases hb : b = Memory.unlisted font a
      · simp only [Memory.image, hb, if_true]
        by_cases hk : k = a
        · subst hk
          rw [ih]
          simp
        · simp [hk]
      · simp only [Memory.image, hb, if_false, Memory.read]
        by_cases hk : k = a
        · simp [hk]
        · by_cases hlt : k < a
          · rw [ih]
            have h1 : ¬ (a + 1 ≤ k) := by omega
            simp [hk, hlt, h1]
          · simp [hk, hlt]
    rw [step, ih]
    by_cases hk : k = a
    · subst hk; simp
    · by_cases hlt : a ≤ k
      · obtain ⟨d, rfl⟩ : ∃ d, k = a + 1 + d := ⟨k - a - 1, by omega⟩
        have e1 : a + 1 + d - a = d + 1 := by omega
        have e2 : a + 1 + d - (a + 1) = d := by omega
        simp only [e1, e2, List.length_cons, List.getElem_cons_succ]
        have : ¬ a + 1 + d = a := by omega
        have h3 : a ≤ a + 1 + d := by omega
        simp [this, h3]
      · have h1 : ¬ (a + 1 ≤ k) := by omega
        simp [hk, hlt, h1]

/-- Equal memories are equal data: two canonical lists that read the same at every address are the same list. -/
theorem Memory.ext_of_wfFrom (font : Font) :
    ∀ (m m' : List Host.Cell) (low : Nat), Memory.wfFrom font low m = true → Memory.wfFrom font low m' = true →
      (∀ a, Memory.read font m a = Memory.read font m' a) → m = m' := by
  have listed : ∀ (k : Nat) (b : Byte) (rest m' : List Host.Cell) (low : Nat),
      Memory.wfFrom font low ((k, b) :: rest) = true → Memory.wfFrom font (k + 1) m' = true →
      (∀ a, Memory.read font ((k, b) :: rest) a = Memory.read font m' a) → False := by
    intro k b rest m' low h h' hr
    simp only [Memory.wfFrom, Bool.and_eq_true, decide_eq_true_eq, bne_iff_ne] at h
    have := hr k
    rw [Memory.read_of_wfFrom font h' (Nat.lt_succ_self k)] at this
    simp [Memory.read] at this
    exact h.1.2 this
  intro m
  induction m with
  | nil =>
    intro m' low _ h' hr
    cases m' with
    | nil => rfl
    | cons c rest =>
      obtain ⟨k, b⟩ := c
      exact (listed k b rest [] low h' rfl (fun a => (hr a).symm)).elim
  | cons c rest ih =>
    obtain ⟨k, b⟩ := c
    intro m' low h h' hr
    cases m' with
    | nil => exact (listed k b rest [] low h rfl hr).elim
    | cons c' rest' =>
      obtain ⟨k', b'⟩ := c'
      have g := h
      have g' := h'
      simp only [Memory.wfFrom, Bool.and_eq_true, decide_eq_true_eq] at g g'
      have weaken : ∀ (j : Nat) (c : Byte) (l : List Host.Cell) (i : Nat), i < j → j < Config.memSize →
          (c != Memory.unlisted font j) = true → Memory.wfFrom font (j + 1) l = true →
          Memory.wfFrom font (i + 1) ((j, c) :: l) = true := by
        intro j c l i hij hj hc hl
        simp only [Memory.wfFrom, Bool.and_eq_true, decide_eq_true_eq]
        exact ⟨⟨⟨hij, hj⟩, hc⟩, hl⟩
      rcases Nat.lt_trichotomy k k' with hlt | heq | hgt
      · exact (listed k b rest _ low h (weaken k' b' rest' k hlt g'.1.1.2 g'.1.2 g'.2) hr).elim
      · subst heq
        have hb : b = b' := by simpa [Memory.read] using hr k
        subst hb
        have : rest = rest' := by
          apply ih rest' (k + 1) g.2 g'.2
          intro a
          by_cases ha : a ≤ k
          · rw [Memory.read_of_wfFrom font g.2 (by omega), Memory.read_of_wfFrom font g'.2 (by omega)]
          · have h1 : ¬ a < k := by omega
            have h2 : ¬ a = k := by omega
            simpa [Memory.read, h1, h2] using hr a
        rw [this]
      · exact (listed k' b' rest' _ low h' (weaken k b rest k' hgt g.1.1.2 g.1.2 g.2) (fun a => (hr a).symm)).elim

theorem Memory.ext_of_wf (font : Font) {m m' : List Host.Cell} (h : Memory.wf font m = true)
    (h' : Memory.wf font m' = true) (hr : ∀ a, Memory.read font m a = Memory.read font m' a) : m = m' :=
  Memory.ext_of_wfFrom font m m' 0 h h' hr

/-- Above the last address a canonical memory reads 0. -/
theorem Memory.read_of_ge (font : Font) :
    ∀ (m : List Host.Cell) (low : Nat), Memory.wfFrom font low m = true → ∀ a, Config.memSize ≤ a →
      Memory.read font m a = 0 := by
  intro m
  induction m with
  | nil => intro low _ a ha; exact Memory.unlisted_of_ge font (Nat.le_trans (by decide) ha)
  | cons c rest ih =>
    obtain ⟨k, b⟩ := c
    intro low h a ha
    simp only [Memory.wfFrom, Bool.and_eq_true, decide_eq_true_eq] at h
    have h1 : ¬ a < k := by omega
    have h2 : ¬ a = k := by omega
    simpa only [Memory.read, h1, h2, if_false] using ih (k + 1) h.2 a ha

/-! ### The framebuffer -/

theorem Framebuffer.lit_of_off (fb : Framebuffer) {x y : Nat} (h : ¬ (x < 64 ∧ y < 32)) :
    Framebuffer.lit fb x y = false := by simp only [Framebuffer.lit, dif_neg h]

/-- Turning a cell over changes that cell and no other. -/
theorem Framebuffer.lit_toggle (fb : Framebuffer) {x y : Nat} (h : x < 64 ∧ y < 32) (x' y' : Nat) :
    Framebuffer.lit (Framebuffer.toggle fb x y) x' y' =
      if x' = x ∧ y' = y then !Framebuffer.lit fb x y else Framebuffer.lit fb x' y' := by
  by_cases h' : x' < 64 ∧ y' < 32
  · simp only [Framebuffer.toggle, Framebuffer.lit, dif_pos h, dif_pos h']
    by_cases hy : y' = y
    · subst hy
      by_cases hx : x' = x
      · subst hx; simp
      · have : ¬ x = x' := fun e => hx e.symm
        simp [hx, this]
    · have : ¬ y = y' := fun e => hy e.symm
      simp [hy, this]
  · have hne : ¬ (x' = x ∧ y' = y) := by rintro ⟨rfl, rfl⟩; exact h' h
    rw [Framebuffer.lit_of_off _ h', if_neg hne, Framebuffer.lit_of_off _ h']

@[simp] theorem Framebuffer.lit_dark (x y : Nat) : Framebuffer.lit Framebuffer.dark x y = false := by
  simp only [Framebuffer.lit, Framebuffer.dark]
  split <;> simp

/-- Two framebuffers with the same cells are the same. -/
theorem Framebuffer.ext_lit {fb fb' : Framebuffer}
    (h : ∀ x y, x < 64 → y < 32 → Framebuffer.lit fb x y = Framebuffer.lit fb' x y) : fb = fb' := by
  apply Vector.ext
  intro y hy
  apply Vector.ext
  intro x hx
  simpa only [Framebuffer.lit, dif_pos (And.intro hx hy)] using h x y hx hy

end Sys2Proof.Machine
end

