-- ==== Sys2Proof/Laws/Sprite.lean ====
section
/-! SUPPORT. What a draw does to each cell and when it reports a hit. -/

namespace Sys2Proof.Machine

/-- The first `n` columns of a sprite row: each cell of the row under a 1 bit is turned over, no other cell changes,
and a hit is a lit cell under a 1 bit. -/
theorem drawRow_columns (x0 y : Nat) (b : Byte) (fb : Framebuffer) (hit : Bool) (hy : y < 32) :
    ∀ n, n ≤ 8 →
      let r := (List.range n).foldl (fun acc c => drawCell (x0 + c) y (b.getLsbD (7 - c)) acc) (fb, hit)
      (∀ x' y', x' < 64 → Framebuffer.lit r.1 x' y' = (Framebuffer.lit fb x' y' ^^
          (decide (y' = y) && decide (x0 ≤ x') && decide (x' < x0 + n) && b.getLsbD (7 - (x' - x0))))) ∧
        (r.2 = true ↔ hit = true ∨ ∃ x', x' < 64 ∧ x0 ≤ x' ∧ x' < x0 + n ∧ b.getLsbD (7 - (x' - x0)) = true ∧
          Framebuffer.lit fb x' y = true) := by
  intro n
  induction n with
  | zero =>
    intro _
    refine ⟨fun x' y' _ => ?_, ?_⟩
    · by_cases h : x0 ≤ x'
      · have h' : ¬ x' < x0 := by omega
        simp [h']
      · simp [h]
    · constructor
      · exact Or.inl
      · rintro (h | ⟨x', _, h1, h2, _⟩)
        · exact h
        · omega
  | succ n ih =>
    intro hn
    obtain ⟨ihl, ihh⟩ := ih (by omega)
    simp only [List.range_succ, List.foldl_append, List.foldl_cons, List.foldl_nil]
    generalize (List.range n).foldl (fun acc c => drawCell (x0 + c) y (b.getLsbD (7 - c)) acc) (fb, hit) = r at ihl ihh
    unfold drawCell
    by_cases hc : x0 + n ≤ 63 ∧ b.getLsbD (7 - n) = true
    · simp only [if_pos hc]
      have hon : x0 + n < 64 ∧ y < 32 := ⟨by omega, hy⟩
      have old : Framebuffer.lit r.1 (x0 + n) y = Framebuffer.lit fb (x0 + n) y := by
        rw [ihl _ _ hon.1]; simp
      refine ⟨fun x' y' hx' => ?_, ?_⟩
      · rw [Framebuffer.lit_toggle _ hon]
        by_cases he : x' = x0 + n ∧ y' = y
        · obtain ⟨rfl, rfl⟩ := he
          simp [old, hc.2]
        · rw [if_neg he, ihl _ _ hx']
          by_cases hy' : y' = y
          · have : x' ≠ x0 + n := fun h => he ⟨h, hy'⟩
            have e : decide (x' < x0 + (n + 1)) = decide (x' < x0 + n) := by
              apply decide_eq_decide.mpr; omega
            rw [e]
          · simp [hy']
      · rw [Bool.or_eq_true, ihh, old]
        constructor
        · rintro ((h | ⟨x', h1, h2, h3, h4⟩) | h)
          · exact Or.inl h
          · exact Or.inr ⟨x', h1, h2, by omega, h4⟩
          · exact Or.inr ⟨x0 + n, hon.1, by omega, by omega, by simpa using hc.2, h⟩
        · rintro (h | ⟨x', h1, h2, h3, h4, h5⟩)
          · exact Or.inl (Or.inl h)
          · by_cases he : x' = x0 + n
            · subst he; exact Or.inr h5
            · exact Or.inl (Or.inr ⟨x', h1, h2, by omega, h4, h5⟩)
    · simp only [if_neg hc]
      have key : ∀ x', x' < 64 → x' = x0 + n → b.getLsbD (7 - (x' - x0)) = false := by
        intro x' h1 h2
        subst h2
        have : ¬ b.getLsbD (7 - n) = true := fun h => hc ⟨by omega, h⟩
        simpa using this
      refine ⟨fun x' y' hx' => ?_, ?_⟩
      · rw [ihl _ _ hx']
        by_cases he : x' = x0 + n
        · simp [key x' hx' he]
        · have e : decide (x' < x0 + (n + 1)) = decide (x' < x0 + n) := by
            apply decide_eq_decide.mpr; omega
          rw [e]
      · rw [ihh]
        constructor
        · rintro (h | ⟨x', h1, h2, h3, h4⟩)
          · exact Or.inl h
          · exact Or.inr ⟨x', h1, h2, by omega, h4⟩
        · rintro (h | ⟨x', h1, h2, h3, h4, h5⟩)
          · exact Or.inl h
          · have he : x' ≠ x0 + n := fun he => by rw [key x' h1 he] at h4; exact absurd h4 (by decide)
            exact Or.inr ⟨x', h1, h2, by omega, h4, h5⟩

/-- A whole draw, cell by cell: a cell on the screen changes where the sprite's bit on it is 1, and a hit is a lit cell
under a 1 bit. -/
theorem drawRows_spec (x0 : Nat) :
    ∀ (rows : List Byte) (y0 : Nat) (fb : Framebuffer) (hit : Bool), y0 + rows.length ≤ 32 →
      (∀ x y, x < 64 → Framebuffer.lit (drawRows x0 y0 rows (fb, hit)).1 x y =
          (Framebuffer.lit fb x y ^^ spriteBit x0 y0 rows x y)) ∧
        ((drawRows x0 y0 rows (fb, hit)).2 = true ↔ hit = true ∨ ∃ x y, x < 64 ∧ spriteBit x0 y0 rows x y = true ∧
          Framebuffer.lit fb x y = true) := by
  intro rows
  induction rows with
  | nil =>
    intro y0 fb hit _
    simp [drawRows, spriteBit]
  | cons b rest ih =>
    intro y0 fb hit hlen
    simp only [List.length_cons] at hlen
    obtain ⟨rl, rh⟩ := drawRow_columns x0 y0 b fb hit (by omega) 8 (Nat.le_refl 8)
    have split : ∀ x y, spriteBit x0 y0 (b :: rest) x y =
        ((decide (y = y0) && decide (x0 ≤ x) && decide (x < x0 + 8) && b.getLsbD (7 - (x - x0))) ||
          spriteBit x0 (y0 + 1) rest x y) := by
      intro x y
      rcases Nat.lt_trichotomy y y0 with h | h | h
      · have h1 : ¬ y0 ≤ y := by omega
        have h2 : ¬ y0 + 1 ≤ y := by omega
        have h3 : ¬ y = y0 := by omega
        simp [spriteBit, h1, h2, h3]
      · subst h
        have h2 : ¬ y + 1 ≤ y := by omega
        simp [spriteBit]
      · have h1 : y0 ≤ y := by omega
        have h2 : y0 + 1 ≤ y := by omega
        have h3 : ¬ y = y0 := by omega
        have h4 : y - y0 = (y - (y0 + 1)) + 1 := by omega
        simp [spriteBit, h1, h2, h3, h4]
    have apart : ∀ x y, y = y0 → spriteBit x0 (y0 + 1) rest x y = false := by
      intro x y h
      have h2 : ¬ y0 + 1 ≤ y := by omega
      simp [spriteBit, h2]
    have e : drawRows x0 y0 (b :: rest) (fb, hit) =
        drawRows x0 (y0 + 1) rest ((drawRow x0 y0 b (fb, hit)).1, (drawRow x0 y0 b (fb, hit)).2) := rfl
    obtain ⟨il, ih'⟩ := ih (y0 + 1) (drawRow x0 y0 b (fb, hit)).1 (drawRow x0 y0 b (fb, hit)).2 (by omega)
    rw [e]
    have rl' : ∀ x y, x < 64 → Framebuffer.lit (drawRow x0 y0 b (fb, hit)).1 x y = (Framebuffer.lit fb x y ^^
        (decide (y = y0) && decide (x0 ≤ x) && decide (x < x0 + 8) && b.getLsbD (7 - (x - x0)))) := rl
    refine ⟨fun x y hx => ?_, ?_⟩
    · rw [il x y hx, rl' x y hx, split]
      by_cases h : y = y0
      · rw [apart x y h]; simp
      · simp [h]
    · rw [ih']
      have rh' : (drawRow x0 y0 b (fb, hit)).2 = true ↔ _ := rh
      rw [rh']
      constructor
      · rintro ((h | ⟨x, h1, h2, h3, h4, h5⟩) | ⟨x, y, h1, h2, h3⟩)
        · exact Or.inl h
        · exact Or.inr ⟨x, y0, h1, by rw [split]; simp [h2, h3, h4], h5⟩
        · have hne : ¬ y = y0 := fun h => by rw [apart x y h] at h2; exact absurd h2 (by decide)
          rw [rl' x y h1] at h3
          exact Or.inr ⟨x, y, h1, by rw [split, h2]; simp, by simpa [hne] using h3⟩
      · rintro (h | ⟨x, y, h1, h2, h3⟩)
        · exact Or.inl (Or.inl h)
        · rw [split, Bool.or_eq_true] at h2
          rcases h2 with h2 | h2
          · simp only [Bool.and_eq_true, decide_eq_true_eq] at h2
            obtain ⟨⟨⟨rfl, ha⟩, hb⟩, hc⟩ := h2
            exact Or.inl (Or.inr ⟨x, h1, ha, hb, hc, h3⟩)
          · have hne : ¬ y = y0 := fun h => by rw [apart x y h] at h2; exact absurd h2 (by decide)
            refine Or.inr ⟨x, y, h1, h2, ?_⟩
            rw [rl' x y h1]
            simpa [hne] using h3

end Sys2Proof.Machine
end

