-- ==== Sys2Proof/Laws/Ops.lean ====
section
/-! SUPPORT. One lemma for each shared operation of `Machine/Ops.lean`, saying once what it does. -/

namespace Sys2Proof.Machine

variable (s : State)

/-! ### Registers -/

/-- Writing a register changes that register and no other. -/
theorem State.reg_setReg (x r : Reg) (b : Byte) : (s.setReg x b).reg r = if r = x then b else s.reg r := by
  simp only [State.reg, State.setReg_v, Vector.getElem_set]
  by_cases h : r = x
  · subst h; simp
  · have : ¬ x.toNat = r.toNat := fun e => h (BitVec.eq_of_toNat_eq e.symm)
    simp [h, this]

@[simp] theorem State.reg_setReg_same (x : Reg) (b : Byte) : (s.setReg x b).reg x = b := by simp [State.reg_setReg]

/-- Registers depend on the field `v` alone. -/
theorem State.reg_of_v {s t : State} (h : t.v = s.v) (r : Reg) : t.reg r = s.reg r := by simp only [State.reg, h]

/-- Result first, flag second (R120). -/
theorem State.reg_setRegAndFlag (x r : Reg) (b : Byte) (c : Bool) :
    (s.setRegAndFlag x b c).reg r = if r = vf then flagByte c else if r = x then b else s.reg r := by
  simp only [State.setRegAndFlag, State.reg_setReg]

/-- A draw writes VF and no other register. -/
theorem State.reg_drawn (d : Framebuffer × Bool) (r : Reg) :
    (s.drawn d).reg r = if r = vf then flagByte d.2 else s.reg r := by
  rw [State.drawn, State.reg_setReg]; rfl

theorem State.reg_endWait (x r : Reg) (k : Key) :
    (s.endWait x k).reg r = if r = x then keyByte k else s.reg r := State.reg_setReg s x r (keyByte k)

/-- A run of register writes from register `k` up. -/
theorem State.reg_setRegsFrom (r : Reg) :
    ∀ (bytes : List Byte) (s : State) (k : Nat), k + bytes.length ≤ 16 →
      (s.setRegsFrom k bytes).reg r =
        if h : k ≤ r.toNat ∧ r.toNat - k < bytes.length then bytes[r.toNat - k]'h.2 else s.reg r := by
  intro bytes
  induction bytes with
  | nil => intro s k _; simp [State.setRegsFrom]
  | cons b rest ih =>
    intro s k hk
    simp only [List.length_cons] at hk
    have hr := r.isLt
    rw [State.setRegsFrom, ih _ (k + 1) (by omega), State.reg_setReg]
    have e : r = BitVec.ofNat 4 k ↔ r.toNat = k := by
      constructor
      · intro h; rw [h]; simp; omega
      · intro h; apply BitVec.eq_of_toNat_eq; simp; omega
    rcases Nat.lt_trichotomy r.toNat k with h | h | h
    · have h1 : ¬ k + 1 ≤ r.toNat := by omega
      have h2 : ¬ k ≤ r.toNat := by omega
      have h3 : ¬ r.toNat = k := by omega
      simp [e, h1, h2, h3]
    · have h1 : ¬ k + 1 ≤ r.toNat := by omega
      simp [e, h]
    · obtain ⟨d, hd⟩ : ∃ d, r.toNat = k + 1 + d := ⟨r.toNat - k - 1, by omega⟩
      have h3 : ¬ r.toNat = k := by omega
      have e1 : k + 1 + d - k = d + 1 := by omega
      have e2 : k + 1 + d - (k + 1) = d := by omega
      have e3 : ¬ k + 1 + d = k := by omega
      have e4 : k ≤ k + 1 + d := by omega
      simp only [e, hd, e1, e2, List.length_cons, List.getElem_cons_succ]
      simp [e3, e4]

/-- A run of register writes changes no other field. -/
theorem State.setRegsFrom_frame :
    ∀ (bytes : List Byte) (s : State) (k : Nat), { s.setRegsFrom k bytes with v := s.v } = s := by
  intro bytes
  induction bytes with
  | nil => intro s k; rfl
  | cons b rest ih =>
    intro s k
    have h := ih (s.setReg (BitVec.ofNat 4 k) b) (k + 1)
    simp only [State.setRegsFrom]
    exact congrArg (fun t : State => { t with v := s.v }) h

/-! ### Memory -/

/-- Bytes depend on the fields `font` and `mem` alone. -/
theorem State.byteAt_of_mem {s t : State} (hf : t.font = s.font) (hm : t.mem = s.mem) (a : Nat) :
    t.byteAt a = s.byteAt a := by simp only [State.byteAt, hf, hm]

/-- Writing a byte changes that byte and no other. -/
theorem State.byteAt_setByte (h : Memory.wf s.font s.mem = true) {a : Nat} (ha : a < Config.memSize) (k : Nat) (b : Byte) :
    (s.setByte a b).byteAt k = if k = a then b else s.byteAt k := Memory.read_write s.font a k b h ha

theorem State.setByte_wf (h : Memory.wf s.font s.mem = true) (a : Nat) (b : Byte) :
    Memory.wf (s.setByte a b).font (s.setByte a b).mem = true := Memory.write_wf s.font a b h

/-- A run of byte writes keeps the canonical form. -/
theorem State.writeBytes_wf :
    ∀ (bytes : List Byte) (s : State) (a : Nat), Memory.wf s.font s.mem = true →
      Memory.wf (s.writeBytes a bytes).font (s.writeBytes a bytes).mem = true := by
  intro bytes
  induction bytes with
  | nil => intro s a h; exact h
  | cons b rest ih => intro s a h; exact ih _ _ (s.setByte_wf h a b)

/-- A run of byte writes: the bytes written, and every other byte as before. -/
theorem State.byteAt_writeBytes :
    ∀ (bytes : List Byte) (s : State) (a k : Nat), Memory.wf s.font s.mem = true →
      a + bytes.length ≤ Config.memSize →
      (s.writeBytes a bytes).byteAt k =
        if h : a ≤ k ∧ k - a < bytes.length then bytes[k - a]'h.2 else s.byteAt k := by
  intro bytes
  induction bytes with
  | nil => intro s a k _ _; simp [State.writeBytes]
  | cons b rest ih =>
    intro s a k hwf hlen
    simp only [List.length_cons] at hlen
    rw [State.writeBytes, ih _ _ _ (s.setByte_wf hwf a b) (by omega), s.byteAt_setByte hwf (by omega)]
    rcases Nat.lt_trichotomy k a with h | h | h
    · have h1 : ¬ a + 1 ≤ k := by omega
      have h2 : ¬ a ≤ k := by omega
      have h3 : ¬ k = a := by omega
      simp [h1, h2, h3]
    · subst h
      simp
    · obtain ⟨d, rfl⟩ : ∃ d, k = a + 1 + d := ⟨k - a - 1, by omega⟩
      have e1 : a + 1 + d - a = d + 1 := by omega
      have e2 : a + 1 + d - (a + 1) = d := by omega
      have e3 : ¬ a + 1 + d = a := by omega
      have e4 : a ≤ a + 1 + d := by omega
      simp only [e1, e2, List.length_cons, List.getElem_cons_succ]
      simp [e3, e4]

/-- A run of byte writes changes no other field. -/
theorem State.writeBytes_frame :
    ∀ (bytes : List Byte) (s : State) (a : Nat), { s.writeBytes a bytes with mem := s.mem } = s := by
  intro bytes
  induction bytes with
  | nil => intro s a; rfl
  | cons b rest ih =>
    intro s a
    have h := ih (s.setByte a b) (a + 1)
    simp only [State.writeBytes]
    exact congrArg (fun t : State => { t with mem := s.mem }) h

@[simp] theorem State.length_readBytes (a n : Nat) : (s.readBytes a n).length = n := by simp [State.readBytes]

@[simp] theorem State.getElem_readBytes (a n k : Nat) (h : k < (s.readBytes a n).length) :
    (s.readBytes a n)[k] = s.byteAt (a + k) := by simp [State.readBytes]

@[simp] theorem State.length_regsUpTo (x : Reg) : (s.regsUpTo x).length = x.toNat + 1 := by simp [State.regsUpTo]

@[simp] theorem State.getElem_regsUpTo (x : Reg) (k : Nat) (h : k < (s.regsUpTo x).length) :
    (s.regsUpTo x)[k] = s.reg (BitVec.ofNat 4 k) := by simp [State.regsUpTo]

theorem inBounds_iff (a n : Nat) : inBounds a n = true ↔ a + n ≤ 4096 := by simp [inBounds]

/-- The pixel a sprite in memory puts on a cell of the screen is the bit of the bytes read for the rows on the
screen. -/
theorem State.spriteBit_readBytes (x y : Reg) (n : Nibble) (col row : Nat) (hrow : row < 32) :
    spriteBit (spriteColumn (s.reg x)) (spriteRow (s.reg y))
        (s.readBytes s.i.toNat (spriteRows n (spriteRow (s.reg y)))) col row = s.spritePixel x y n col row := by
  have hy : spriteRow (s.reg y) < 32 := Nat.mod_lt _ (by decide)
  have e : (s.reg y).toNat % 32 = spriteRow (s.reg y) := rfl
  have e' : (s.reg x).toNat % 64 = spriteColumn (s.reg x) := rfl
  simp only [spriteBit, State.spritePixel, e, e']
  by_cases h1 : spriteRow (s.reg y) ≤ row
  · by_cases h2 : row < spriteRow (s.reg y) + n.toNat
    · have h3 : row - spriteRow (s.reg y) < spriteRows n (spriteRow (s.reg y)) := by simp only [spriteRows]; omega
      have h4 : row - spriteRow (s.reg y) < (s.readBytes s.i.toNat (spriteRows n (spriteRow (s.reg y)))).length := by
        rw [State.length_readBytes]; exact h3
      rw [List.getElem?_eq_getElem h4]
      simp [h1, h2]
    · have h3 : ¬ row - spriteRow (s.reg y) < spriteRows n (spriteRow (s.reg y)) := by simp only [spriteRows]; omega
      have h4 : (s.readBytes s.i.toNat (spriteRows n (spriteRow (s.reg y)))).length ≤ row - spriteRow (s.reg y) := by
        rw [State.length_readBytes]; omega
      rw [List.getElem?_eq_none h4]
      simp [h2]
  · simp [h1]

/-! ### The stack -/

/-- A push with room: the entry at the old SP, SP one higher, nothing else. -/
theorem State.push_of_lt (r : Word) (h : s.sp.val < 16) :
    s.push r = some { s with stack := s.stack.set s.sp.val r h, sp := ⟨s.sp.val + 1, by omega⟩ } := by
  simp only [State.push, dif_pos h]

theorem State.push_of_full (r : Word) (h : s.sp.val = 16) : s.push r = none := by
  have : ¬ s.sp.val < 16 := by omega
  simp only [State.push, dif_neg this]

/-- A pop of a stack that is not empty: the top entry, SP one lower, nothing else. -/
theorem State.pop_of_pos (h : 0 < s.sp.val) :
    s.pop = some (s.stack[s.sp.val - 1]'(by omega), { s with sp := ⟨s.sp.val - 1, by omega⟩ }) := by
  simp only [State.pop, dif_pos h]

theorem State.pop_of_empty (h : s.sp.val = 0) : s.pop = none := by
  have : ¬ 0 < s.sp.val := by omega
  simp only [State.pop, dif_neg this]

/-! ### Faults and frames -/

/-- The fault entry of an instruction is the fatal fault entry, word and address of the instruction on record. -/
theorem State.raiseIn_entry (j : Instr) (k : FaultKind) : FatalEntry k (encode j) (s.pc - 2) s (s.raiseIn j k) := by
  refine ⟨rfl, rfl, rfl, rfl, rfl, rfl, fun p hp => ?_⟩
  cases p <;> first | exact absurd hp (by decide) | exact fun _ => rfl | exact ⟨rfl, rfl⟩ | rfl

theorem State.fetchFault_entry : FatalEntry .memoryBounds 0 s.pc s s.fetchFault := by
  refine ⟨rfl, rfl, rfl, rfl, rfl, rfl, fun p hp => ?_⟩
  cases p <;> first | exact absurd hp (by decide) | exact fun _ => rfl | exact ⟨rfl, rfl⟩ | rfl

theorem SameExcept.refl (ps : List Part) (s : State) : SameExcept ps s s := by
  intro p _
  cases p <;> first | exact fun _ => rfl | exact ⟨rfl, rfl, rfl⟩ | exact ⟨rfl, rfl⟩ | rfl

/-- A wider list of written parts makes a weaker frame. -/
theorem SameExcept.mono {ps qs : List Part} {s t : State} (h : SameExcept ps s t) (hs : ∀ p, p ∈ ps → p ∈ qs) :
    SameExcept qs s t := fun p hp => h p fun hm => hp (hs p hm)

theorem SameExcept.trans {ps : List Part} {s t u : State} (h : SameExcept ps s t) (h' : SameExcept ps t u) :
    SameExcept ps s u := by
  intro p hp
  have a := h p hp
  have b := h' p hp
  cases p with
  | registers => exact fun r => (b r).trans (a r)
  | memory => exact fun r => (b r).trans (a r)
  | faultRecord => exact ⟨b.1.trans a.1, b.2.1.trans a.2.1, b.2.2.trans a.2.2⟩
  | keyInput => exact ⟨b.1.trans a.1, b.2.trans a.2⟩
  | randomInput => exact ⟨b.1.trans a.1, b.2.trans a.2⟩
  | index | pc | stackEntries | sp | delayTimer | soundTimer | screen | font | runState | cycleRate | keyWait | ir
  | agenda | outputs => exact Eq.trans b a

end Sys2Proof.Machine
end

