-- ==== Sys2Proof/Laws/Commands.lean ====
section
/-! SUPPORT. What the host commands do: the fields after a reset and after a load-state, the fields of a snapshot, and
when a command is taken. -/

namespace Sys2Proof.Machine

variable (s : State)

/-! ### reinitialised -/

@[simp] theorem State.reinitialised_v (rom : List Byte) : (s.reinitialised rom).v = Vector.replicate 16 0 := rfl
@[simp] theorem State.reinitialised_i (rom : List Byte) : (s.reinitialised rom).i = 0 := rfl
@[simp] theorem State.reinitialised_pc (rom : List Byte) : (s.reinitialised rom).pc = 0x200 := rfl
@[simp] theorem State.reinitialised_stack (rom : List Byte) :
    (s.reinitialised rom).stack = Vector.replicate 16 0 := rfl
@[simp] theorem State.reinitialised_sp (rom : List Byte) : (s.reinitialised rom).sp = 0 := rfl
@[simp] theorem State.reinitialised_dt (rom : List Byte) : (s.reinitialised rom).dt = 0 := rfl
@[simp] theorem State.reinitialised_st (rom : List Byte) : (s.reinitialised rom).st = 0 := rfl
@[simp] theorem State.reinitialised_fb (rom : List Byte) : (s.reinitialised rom).fb = Framebuffer.dark := rfl
@[simp] theorem State.reinitialised_mem (rom : List Byte) :
    (s.reinitialised rom).mem = Memory.image s.font Config.romBase rom := rfl
@[simp] theorem State.reinitialised_font (rom : List Byte) : (s.reinitialised rom).font = s.font := rfl
@[simp] theorem State.reinitialised_runState (rom : List Byte) : (s.reinitialised rom).runState = .running := rfl
@[simp] theorem State.reinitialised_faultKind (rom : List Byte) : (s.reinitialised rom).faultKind = .none := rfl
@[simp] theorem State.reinitialised_faultOpcode (rom : List Byte) : (s.reinitialised rom).faultOpcode = 0 := rfl
@[simp] theorem State.reinitialised_faultPc (rom : List Byte) : (s.reinitialised rom).faultPc = 0 := rfl
@[simp] theorem State.reinitialised_cycleRate (rom : List Byte) : (s.reinitialised rom).cycleRate = s.cycleRate := rfl
@[simp] theorem State.reinitialised_waitKey (rom : List Byte) : (s.reinitialised rom).waitKey = false := rfl
@[simp] theorem State.reinitialised_ir (rom : List Byte) : (s.reinitialised rom).ir = 0 := rfl
@[simp] theorem State.reinitialised_keyFeed (rom : List Byte) : (s.reinitialised rom).keyFeed = s.keyFeed := rfl
@[simp] theorem State.reinitialised_keyDraws (rom : List Byte) : (s.reinitialised rom).keyDraws = s.keyDraws := rfl
@[simp] theorem State.reinitialised_rndFeed (rom : List Byte) : (s.reinitialised rom).rndFeed = s.rndFeed := rfl
@[simp] theorem State.reinitialised_rndDraws (rom : List Byte) : (s.reinitialised rom).rndDraws = s.rndDraws := rfl
@[simp] theorem State.reinitialised_agenda (rom : List Byte) : (s.reinitialised rom).agenda = s.agenda := rfl
@[simp] theorem State.reinitialised_outputs (rom : List Byte) : (s.reinitialised rom).outputs = s.outputs := rfl

/-! ### restored -/

@[simp] theorem State.restored_v (f : Snapshot) : (s.restored f).v = vectorOf 16 0 f.v := rfl
@[simp] theorem State.restored_i (f : Snapshot) : (s.restored f).i = BitVec.ofNat 12 f.i := rfl
@[simp] theorem State.restored_pc (f : Snapshot) : (s.restored f).pc = f.pc := rfl
@[simp] theorem State.restored_stack (f : Snapshot) : (s.restored f).stack = vectorOf 16 0 f.stack := rfl
@[simp] theorem State.restored_sp (f : Snapshot) : (s.restored f).sp = Fin.ofNat 17 f.sp := rfl
@[simp] theorem State.restored_dt (f : Snapshot) : (s.restored f).dt = f.dt := rfl
@[simp] theorem State.restored_st (f : Snapshot) : (s.restored f).st = f.st := rfl
@[simp] theorem State.restored_fb (f : Snapshot) : (s.restored f).fb = screenOf f.fb := rfl
@[simp] theorem State.restored_mem (f : Snapshot) : (s.restored f).mem = Memory.image s.font 0 f.mem := rfl
@[simp] theorem State.restored_font (f : Snapshot) : (s.restored f).font = s.font := rfl
@[simp] theorem State.restored_runState (f : Snapshot) : (s.restored f).runState = s.runState := rfl
@[simp] theorem State.restored_faultKind (f : Snapshot) : (s.restored f).faultKind = s.faultKind := rfl
@[simp] theorem State.restored_faultOpcode (f : Snapshot) : (s.restored f).faultOpcode = s.faultOpcode := rfl
@[simp] theorem State.restored_faultPc (f : Snapshot) : (s.restored f).faultPc = s.faultPc := rfl
@[simp] theorem State.restored_cycleRate (f : Snapshot) : (s.restored f).cycleRate = s.cycleRate := rfl
@[simp] theorem State.restored_waitKey (f : Snapshot) : (s.restored f).waitKey = false := rfl
@[simp] theorem State.restored_ir (f : Snapshot) : (s.restored f).ir = 0 := rfl
@[simp] theorem State.restored_keyFeed (f : Snapshot) : (s.restored f).keyFeed = s.keyFeed := rfl
@[simp] theorem State.restored_keyDraws (f : Snapshot) : (s.restored f).keyDraws = s.keyDraws := rfl
@[simp] theorem State.restored_rndFeed (f : Snapshot) : (s.restored f).rndFeed = s.rndFeed := rfl
@[simp] theorem State.restored_rndDraws (f : Snapshot) : (s.restored f).rndDraws = s.rndDraws := rfl
@[simp] theorem State.restored_agenda (f : Snapshot) : (s.restored f).agenda = s.agenda := rfl
@[simp] theorem State.restored_outputs (f : Snapshot) : (s.restored f).outputs = s.outputs := rfl

/-! ### snapshot -/

@[simp] theorem State.snapshot_mem : s.snapshot.mem = tabulate Config.memSize s.byteAt := by rw [State.snapshot]
@[simp] theorem State.snapshot_pc : s.snapshot.pc = s.pc := rfl
@[simp] theorem State.snapshot_v : s.snapshot.v = s.v.toList := rfl
@[simp] theorem State.snapshot_i : s.snapshot.i = s.i.toNat := rfl
@[simp] theorem State.snapshot_stack : s.snapshot.stack = s.stack.toList := rfl
@[simp] theorem State.snapshot_sp : s.snapshot.sp = s.sp.val := rfl
@[simp] theorem State.snapshot_dt : s.snapshot.dt = s.dt := rfl
@[simp] theorem State.snapshot_st : s.snapshot.st = s.st := rfl
@[simp] theorem State.snapshot_fb : s.snapshot.fb = tabulate 2048 s.cellByte := by rw [State.snapshot]

/-! ### The fields of a snapshot -/

@[simp] theorem length_tabulate (n : Nat) (f : Nat → Byte) : (tabulate n f).length = n := by simp [tabulate]

theorem getElem?_tabulate (n k : Nat) (f : Nat → Byte) (h : k < n) : (tabulate n f)[k]? = some (f k) := by
  simp [tabulate, h]

theorem mem_tabulate (n : Nat) (f : Nat → Byte) (b : Byte) (h : b ∈ tabulate n f) : ∃ k, f k = b := by
  simp only [tabulate, List.mem_map] at h
  exact h.elim fun k hk => ⟨k, hk.2⟩

theorem State.snapshot_mem_length : s.snapshot.mem.length = Config.memSize := by
  rw [State.snapshot_mem, length_tabulate]

theorem State.snapshot_mem_get (a : Nat) (h : a < Config.memSize) : s.snapshot.mem[a]? = some (s.byteAt a) := by
  rw [State.snapshot_mem, getElem?_tabulate _ _ _ h]

theorem State.snapshot_fb_length : s.snapshot.fb.length = 2048 := by
  rw [State.snapshot_fb, length_tabulate]

/-- The cell of column `x`, row `y` stands at place `y * 64 + x` of the snapshot. -/
theorem State.snapshot_fb_get (x y : Nat) (hx : x < 64) (hy : y < 32) :
    s.snapshot.fb[y * 64 + x]? = some (if Framebuffer.lit s.fb x y then 1 else 0) := by
  have e1 : (y * 64 + x) % 64 = x := by omega
  have e2 : (y * 64 + x) / 64 = y := by omega
  rw [State.snapshot_fb, getElem?_tabulate _ _ _ (by omega), State.cellByte, e1, e2]

/-- The snapshot of a state is one that load-state accepts. -/
theorem State.snapshot_accepted : s.snapshot.accepted = true := by
  have hsp := s.sp.isLt
  have hi := s.i.isLt
  have cells : s.snapshot.fb.all (fun b => b == 0 || b == 1) = true := by
    rw [State.snapshot_fb, List.all_eq_true]
    intro b hb
    obtain ⟨k, rfl⟩ := mem_tabulate _ _ _ hb
    simp only [State.cellByte]
    split <;> rfl
  have h1 : s.sp.val ≤ 16 := by omega
  have h2 : s.i.toNat ≤ 0xFFF := by omega
  rw [Snapshot.accepted, cells, State.snapshot_mem_length, State.snapshot_fb_length]
  simp [h1, h2]

/-! ### The fields put back -/

theorem getElem_vectorOf {α : Type} (n : Nat) (d : α) (l : List α) (k : Nat) (h : k < n) :
    (vectorOf n d l)[k]'h = l.getD k d := by simp [vectorOf]

theorem lit_screenOf (l : List Byte) (x y : Nat) (hx : x < 64) (hy : y < 32) :
    Framebuffer.lit (screenOf l) x y = (l.getD (y * 64 + x) 0 == 1) := by
  rw [Framebuffer.lit, dif_pos ⟨hx, hy⟩]
  simp [screenOf]

/-! ### When a command is taken -/

theorem State.resetCommand_of_le (rom : List Byte) (h : rom.length ≤ 3584) :
    s.resetCommand rom = s.reinitialised rom := if_pos h

theorem State.resetCommand_of_gt (rom : List Byte) (h : 3584 < rom.length) :
    s.resetCommand rom = s.emit [.diag .oversizedRom (saturate16 rom.length) 0] := if_neg (Nat.not_le.mpr h)

theorem State.loadCommand_taken (f : Snapshot) (h : s.runState ≠ .running) (h' : f.accepted = true) :
    s.loadCommand f = s.restored f := if_pos ⟨h, h'⟩

theorem State.loadCommand_refused (f : Snapshot) (h : s.runState = .running ∨ f.accepted = false) :
    s.loadCommand f = s.emit [.diag .loadStateRefused 0 0] := by
  refine if_neg ?_
  rintro ⟨h1, h2⟩
  rcases h with h | h
  · exact h1 h
  · rw [h] at h2; exact absurd h2 (by decide)

end Sys2Proof.Machine
end

