-- ==== Sys2Proof/Laws/Decode.lean ====
section
/-! SUPPORT. The fields of packed words, and words put together from their fields. -/

namespace Sys2Proof

@[simp] theorem opTop_packNNN (t : Nibble) (a : Addr) : opTop (packNNN t a) = t := by
  apply BitVec.eq_of_getLsbD_eq
  intro k hk
  simp only [opTop, packNNN, BitVec.getLsbD_extractLsb', BitVec.getLsbD_append]
  have h1 : ¬ (12 + k < 12) := by omega
  simp [hk, h1]

@[simp] theorem opNNN_packNNN (t : Nibble) (a : Addr) : opNNN (packNNN t a) = a := by
  apply BitVec.eq_of_getLsbD_eq
  intro k hk
  simp only [opNNN, packNNN, BitVec.getLsbD_extractLsb', BitVec.getLsbD_append]
  simp [hk]

@[simp] theorem opTop_packXNN (t x : Nibble) (nn : Byte) : opTop (packXNN t x nn) = t := by
  apply BitVec.eq_of_getLsbD_eq
  intro k hk
  simp only [opTop, packXNN, BitVec.getLsbD_extractLsb', BitVec.getLsbD_append]
  have h1 : ¬ (12 + k < 8) := by omega
  have h2 : ¬ (12 + k - 8 < 4) := by omega
  have h3 : 12 + k - 8 - 4 = k := by omega
  simp [hk, h1, h2, h3]

@[simp] theorem opX_packXNN (t x : Nibble) (nn : Byte) : opX (packXNN t x nn) = x := by
  apply BitVec.eq_of_getLsbD_eq
  intro k hk
  simp only [opX, packXNN, BitVec.getLsbD_extractLsb', BitVec.getLsbD_append]
  have h1 : ¬ (8 + k < 8) := by omega
  simp [hk, h1]

@[simp] theorem opNN_packXNN (t x : Nibble) (nn : Byte) : opNN (packXNN t x nn) = nn := by
  apply BitVec.eq_of_getLsbD_eq
  intro k hk
  simp only [opNN, packXNN, BitVec.getLsbD_extractLsb', BitVec.getLsbD_append]
  simp [hk]

@[simp] theorem opTop_packXYN (t x y n : Nibble) : opTop (packXYN t x y n) = t := by
  apply BitVec.eq_of_getLsbD_eq
  intro k hk
  simp only [opTop, packXYN, BitVec.getLsbD_extractLsb', BitVec.getLsbD_append]
  have h1 : ¬ (12 + k < 4) := by omega
  have h2 : ¬ (12 + k - 4 < 4) := by omega
  have h3 : ¬ (12 + k - 4 - 4 < 4) := by omega
  have h4 : 12 + k - 4 - 4 - 4 = k := by omega
  simp [hk, h1, h2, h3, h4]

@[simp] theorem opX_packXYN (t x y n : Nibble) : opX (packXYN t x y n) = x := by
  apply BitVec.eq_of_getLsbD_eq
  intro k hk
  simp only [opX, packXYN, BitVec.getLsbD_extractLsb', BitVec.getLsbD_append]
  have h1 : ¬ (8 + k < 4) := by omega
  have h2 : ¬ (8 + k - 4 < 4) := by omega
  have h3 : 8 + k - 4 - 4 = k := by omega
  simp [hk, h1, h2, h3]

@[simp] theorem opY_packXYN (t x y n : Nibble) : opY (packXYN t x y n) = y := by
  apply BitVec.eq_of_getLsbD_eq
  intro k hk
  simp only [opY, packXYN, BitVec.getLsbD_extractLsb', BitVec.getLsbD_append]
  have h1 : ¬ (4 + k < 4) := by omega
  simp [hk, h1]

@[simp] theorem opN_packXYN (t x y n : Nibble) : opN (packXYN t x y n) = n := by
  apply BitVec.eq_of_getLsbD_eq
  intro k hk
  simp only [opN, packXYN, BitVec.getLsbD_extractLsb', BitVec.getLsbD_append]
  simp [hk]

/-- A word is its top nibble and its 12-bit operand. -/
theorem packNNN_fields (w : Word) : packNNN (opTop w) (opNNN w) = w := by
  apply BitVec.eq_of_getLsbD_eq
  intro k hk
  simp only [packNNN, opTop, opNNN, BitVec.getLsbD_append, BitVec.getLsbD_extractLsb']
  by_cases h : k < 12
  · simp [h]
  · have h1 : k - 12 < 4 := by omega
    have h2 : 12 + (k - 12) = k := by omega
    simp [h, h1, h2]

/-- A word is its top nibble, X and the low byte. -/
theorem packXNN_fields (w : Word) : packXNN (opTop w) (opX w) (opNN w) = w := by
  apply BitVec.eq_of_getLsbD_eq
  intro k hk
  simp only [packXNN, opTop, opX, opNN, BitVec.getLsbD_append, BitVec.getLsbD_extractLsb']
  by_cases h : k < 8
  · simp [h]
  · by_cases h' : k - 8 < 4
    · have h2 : 8 + (k - 8) = k := by omega
      simp [h, h', h2]
    · have h1 : k - 8 - 4 < 4 := by omega
      have h2 : 12 + (k - 8 - 4) = k := by omega
      simp [h, h', h1, h2]

/-- A word is its four nibbles. -/
theorem packXYN_fields (w : Word) : packXYN (opTop w) (opX w) (opY w) (opN w) = w := by
  apply BitVec.eq_of_getLsbD_eq
  intro k hk
  simp only [packXYN, opTop, opX, opY, opN, BitVec.getLsbD_append, BitVec.getLsbD_extractLsb']
  by_cases h : k < 4
  · simp [h]
  · by_cases h' : k - 4 < 4
    · have h2 : 4 + (k - 4) = k := by omega
      simp [h, h', h2]
    · by_cases h'' : k - 4 - 4 < 4
      · have h2 : 8 + (k - 4 - 4) = k := by omega
        simp [h, h', h'', h2]
      · have h1 : k - 4 - 4 - 4 < 4 := by omega
        have h2 : 12 + (k - 4 - 4 - 4) = k := by omega
        simp [h, h', h'', h1, h2]

/-- A mask acts on the fields of a word one by one. -/
theorem packXYN_and (t x y n t' x' y' n' : Nibble) :
    packXYN t x y n &&& packXYN t' x' y' n' = packXYN (t &&& t') (x &&& x') (y &&& y') (n &&& n') := by
  apply BitVec.eq_of_getLsbD_eq
  intro k hk
  simp only [packXYN, BitVec.getLsbD_append, BitVec.getLsbD_and]
  repeat' split
  all_goals rfl

theorem packXNN_and (t x t' x' : Nibble) (nn nn' : Byte) :
    packXNN t x nn &&& packXNN t' x' nn' = packXNN (t &&& t') (x &&& x') (nn &&& nn') := by
  apply BitVec.eq_of_getLsbD_eq
  intro k hk
  simp only [packXNN, BitVec.getLsbD_append, BitVec.getLsbD_and]
  repeat' split
  all_goals rfl

theorem packNNN_and (t t' : Nibble) (a a' : Addr) :
    packNNN t a &&& packNNN t' a' = packNNN (t &&& t') (a &&& a') := by
  apply BitVec.eq_of_getLsbD_eq
  intro k hk
  simp only [packNNN, BitVec.getLsbD_append, BitVec.getLsbD_and]
  repeat' split
  all_goals rfl

/-- The word of the bytes of a word is that word. -/
@[simp] theorem wordOfBytes_bytes (w : Word) : wordOfBytes (w.extractLsb' 8 8) (w.extractLsb' 0 8) = w := by
  apply BitVec.eq_of_getLsbD_eq
  intro k hk
  simp only [wordOfBytes, BitVec.getLsbD_append, BitVec.getLsbD_extractLsb']
  by_cases h : k < 8
  · simp [h]
  · have h1 : k - 8 < 8 := by omega
    have h2 : 8 + (k - 8) = k := by omega
    simp [h, h1, h2]

/-- Decoding bytes is decoding the word they make. -/
theorem decode_bytesOfWord (w : Word) (rest : List Byte) :
    decode (bytesOfWord w ++ rest) = (decodeWord w).map fun i => (i, rest) := by
  simp only [bytesOfWord, List.cons_append, List.nil_append, decode, wordOfBytes_bytes]
  cases decodeWord w <;> rfl

/-- A family decoder answers an instruction or rejects the very word it was given. -/
theorem family_total (w : Word) :
    ((∃ i, decodeFamily0 w = .ok i) ∨ decodeFamily0 w = .error (.unimplemented w)) ∧
      ((∃ i, decodeFamily8 w = .ok i) ∨ decodeFamily8 w = .error (.unimplemented w)) ∧
      ((∃ i, decodeFamilyE w = .ok i) ∨ decodeFamilyE w = .error (.unimplemented w)) ∧
      ((∃ i, decodeFamilyF w = .ok i) ∨ decodeFamilyF w = .error (.unimplemented w)) := by
  refine ⟨?_, ?_, ?_, ?_⟩
  · unfold decodeFamily0
    repeat' split
    all_goals first | exact Or.inl ⟨_, rfl⟩ | exact Or.inr rfl
  · unfold decodeFamily8
    repeat' split
    all_goals first | exact Or.inl ⟨_, rfl⟩ | exact Or.inr rfl
  · unfold decodeFamilyE
    repeat' split
    all_goals first | exact Or.inl ⟨_, rfl⟩ | exact Or.inr rfl
  · unfold decodeFamilyF
    repeat' split
    all_goals first | exact Or.inl ⟨_, rfl⟩ | exact Or.inr rfl

/-! The decoder by the high nibble, one lemma per top-level code (R74). -/

theorem decodeWord_family0 {w : Word} (h : opTop w = Opcode.family0) : decodeWord w = decodeFamily0 w := by
  simp [decodeWord, h]

theorem decodeWord_jp {w : Word} (h : opTop w = Opcode.jp) : decodeWord w = .ok (.jp (opNNN w)) := by
  simp [decodeWord, h]

theorem decodeWord_call {w : Word} (h : opTop w = Opcode.call) : decodeWord w = .ok (.call (opNNN w)) := by
  simp [decodeWord, h]

theorem decodeWord_seImm {w : Word} (h : opTop w = Opcode.seImm) :
    decodeWord w = .ok (.seImm (opX w) (opNN w)) := by
  simp [decodeWord, h]

theorem decodeWord_sneImm {w : Word} (h : opTop w = Opcode.sneImm) :
    decodeWord w = .ok (.sneImm (opX w) (opNN w)) := by
  simp [decodeWord, h]

theorem decodeWord_seReg {w : Word} (h : opTop w = Opcode.seReg) :
    decodeWord w = .ok (.seReg (opX w) (opY w) (opN w)) := by
  simp [decodeWord, h]

theorem decodeWord_ldImm {w : Word} (h : opTop w = Opcode.ldImm) :
    decodeWord w = .ok (.ldImm (opX w) (opNN w)) := by
  simp [decodeWord, h]

theorem decodeWord_addImm {w : Word} (h : opTop w = Opcode.addImm) :
    decodeWord w = .ok (.addImm (opX w) (opNN w)) := by
  simp [decodeWord, h]

theorem decodeWord_family8 {w : Word} (h : opTop w = Opcode.family8) : decodeWord w = decodeFamily8 w := by
  simp [decodeWord, h]

theorem decodeWord_sneReg {w : Word} (h : opTop w = Opcode.sneReg) :
    decodeWord w = .ok (.sneReg (opX w) (opY w) (opN w)) := by
  simp [decodeWord, h]

theorem decodeWord_ldI {w : Word} (h : opTop w = Opcode.ldI) : decodeWord w = .ok (.ldI (opNNN w)) := by
  simp [decodeWord, h]

theorem decodeWord_jpV0 {w : Word} (h : opTop w = Opcode.jpV0) : decodeWord w = .ok (.jpV0 (opNNN w)) := by
  simp [decodeWord, h]

theorem decodeWord_rnd {w : Word} (h : opTop w = Opcode.rnd) : decodeWord w = .ok (.rnd (opX w) (opNN w)) := by
  simp [decodeWord, h]

theorem decodeWord_drw {w : Word} (h : opTop w = Opcode.drw) :
    decodeWord w = .ok (.drw (opX w) (opY w) (opN w)) := by
  simp [decodeWord, h]

theorem decodeWord_familyE {w : Word} (h : opTop w = Opcode.familyE) : decodeWord w = decodeFamilyE w := by
  simp [decodeWord, h]

theorem decodeWord_familyF {w : Word} (h : opTop w = Opcode.familyF) : decodeWord w = decodeFamilyF w := by
  simp [decodeWord, h]

/-- A nibble is one of sixteen. -/
theorem nibble_cases (n : Nibble) : n = 0 ∨ n = 1 ∨ n = 2 ∨ n = 3 ∨ n = 4 ∨ n = 5 ∨ n = 6 ∨ n = 7 ∨ n = 8 ∨ n = 9 ∨
    n = 10 ∨ n = 11 ∨ n = 12 ∨ n = 13 ∨ n = 14 ∨ n = 15 := by
  revert n; decide

/-- The decoder answers an instruction or rejects the very word it was given. -/
theorem decodeWord_total (w : Word) : (∃ i, decodeWord w = .ok i) ∨ decodeWord w = .error (.unimplemented w) := by
  obtain ⟨h0, h8, hE, hF⟩ := family_total w
  rcases nibble_cases (opTop w) with h | h | h | h | h | h | h | h | h | h | h | h | h | h | h | h
  · rw [decodeWord_family0 h]; exact h0
  · rw [decodeWord_jp h]; exact Or.inl ⟨_, rfl⟩
  · rw [decodeWord_call h]; exact Or.inl ⟨_, rfl⟩
  · rw [decodeWord_seImm h]; exact Or.inl ⟨_, rfl⟩
  · rw [decodeWord_sneImm h]; exact Or.inl ⟨_, rfl⟩
  · rw [decodeWord_seReg h]; exact Or.inl ⟨_, rfl⟩
  · rw [decodeWord_ldImm h]; exact Or.inl ⟨_, rfl⟩
  · rw [decodeWord_addImm h]; exact Or.inl ⟨_, rfl⟩
  · rw [decodeWord_family8 h]; exact h8
  · rw [decodeWord_sneReg h]; exact Or.inl ⟨_, rfl⟩
  · rw [decodeWord_ldI h]; exact Or.inl ⟨_, rfl⟩
  · rw [decodeWord_jpV0 h]; exact Or.inl ⟨_, rfl⟩
  · rw [decodeWord_rnd h]; exact Or.inl ⟨_, rfl⟩
  · rw [decodeWord_drw h]; exact Or.inl ⟨_, rfl⟩
  · rw [decodeWord_familyE h]; exact hE
  · rw [decodeWord_familyF h]; exact hF

theorem decodeWord_error {w : Word} {r : Reject} (h : decodeWord w = .error r) : r = .unimplemented w := by
  rcases decodeWord_total w with ⟨i, hi⟩ | he
  · rw [hi] at h; exact nomatch h
  · rw [he] at h; exact (Except.error.inj h).symm

end Sys2Proof
end

