-- ==== Sys2Proof/Laws/Cycle.lean ====
section
/-! SUPPORT. Everything a step can do, case by case. -/

namespace Sys2Proof.Machine

variable {s t : State}

/-- A fetch in range reads the two bytes at PC, the first one high. -/
theorem State.fetchWord_of_le (s : State) (h : s.pc.toNat ≤ 0xFFE) :
    s.fetchWord = some (wordOfBytes (s.byteAt s.pc.toNat) (s.byteAt (s.pc.toNat + 1))) := by
  have : inBounds s.pc.toNat 2 = true := (inBounds_iff _ _).mpr (by omega)
  simp only [State.fetchWord, this, if_true]

theorem State.fetchWord_of_gt (s : State) (h : 0xFFE < s.pc.toNat) : s.fetchWord = none := by
  have : ¬ inBounds s.pc.toNat 2 = true := fun e => by have := (inBounds_iff _ _).mp e; omega
  simp only [State.fetchWord, this, if_false, Bool.false_eq_true]

/-- What a fetch-decode-execute cycle can do. -/
theorem cycle_cases (h : cycle s = .next t) :
    (s.fetchWord = none ∧ t = s.fetchFault) ∨
      (∃ op i, s.fetchWord = some op ∧ decodeWord op = .ok i ∧ exec i (s.fetched op) = .next t) ∨
      (∃ op, s.fetchWord = some op ∧ decodeWord op = .error (.unimplemented op) ∧
        t = (s.fetched op).unimplemented op s.pc) := by
  unfold cycle at h
  cases hf : s.fetchWord with
  | none =>
    rw [hf] at h
    exact Or.inl ⟨rfl, (Host.Outcome.next.inj h).symm⟩
  | some op =>
    rw [hf] at h
    cases hd : decodeWord op with
    | ok i =>
      simp only [hd] at h
      exact Or.inr (Or.inl ⟨op, i, rfl, hd, h⟩)
    | error r =>
      simp only [hd] at h
      exact Or.inr (Or.inr ⟨op, rfl, by rw [hd, decodeWord_error hd], (Host.Outcome.next.inj h).symm⟩)

/-- What an instruction step can do. -/
theorem instructionStep_cases (h : instructionStep s = .next t) :
    (s.runState ≠ .running ∧ t = s) ∨
      (s.runState = .running ∧ s.waitKey = true ∧ t = s.poll) ∨
      (s.runState = .running ∧ s.waitKey = false ∧ cycle s = .next t) := by
  unfold instructionStep at h
  split at h
  · split at h
    · exact Or.inr (Or.inl ⟨‹_›, ‹_›, (Host.Outcome.next.inj h).symm⟩)
    · exact Or.inr (Or.inr ⟨‹_›, by simpa using ‹¬ s.waitKey = true›, h⟩)
  · exact Or.inl ⟨‹_›, (Host.Outcome.next.inj h).symm⟩

/-- What an event can do. -/
theorem perform_cases {e : Event} (h : perform s e = .next t) :
    (e = .step ∧ instructionStep s = .next t) ∨
      (∃ reads u, e = .tornStep reads ∧ instructionStep s = .next u ∧ t = u.emit (tornOutputs s u reads)) ∨
      (e = .tick ∧ t = s.tickIfRunning) ∨ (∃ c, e = .command c ∧ t = s.command c) ∨
      (∃ rate, e = .setCycleRate rate ∧ t = { s with cycleRate := rate }) ∨
      (∃ p, e = .readCell p ∧ t = s.emit [.cell p (s.fbPort p)]) := by
  cases e with
  | step => exact Or.inl ⟨rfl, h⟩
  | tornStep reads =>
    simp only [perform] at h
    cases hi : instructionStep s with
    | next u =>
      rw [hi] at h
      exact Or.inr (Or.inl ⟨reads, u, rfl, rfl, (Host.Outcome.next.inj h).symm⟩)
    | fault r => rw [hi] at h; exact nomatch h
    | refused r => rw [hi] at h; exact nomatch h
  | tick => exact Or.inr (Or.inr (Or.inl ⟨rfl, (Host.Outcome.next.inj h).symm⟩))
  | command c => exact Or.inr (Or.inr (Or.inr (Or.inl ⟨c, rfl, (Host.Outcome.next.inj h).symm⟩)))
  | setCycleRate rate => exact Or.inr (Or.inr (Or.inr (Or.inr (Or.inl ⟨rate, rfl, (Host.Outcome.next.inj h).symm⟩))))
  | readCell p => exact Or.inr (Or.inr (Or.inr (Or.inr (Or.inr ⟨p, rfl, (Host.Outcome.next.inj h).symm⟩))))

/-- A poll either takes a key and ends the wait, or takes an empty sample and changes nothing else. -/
theorem State.poll_cases (s : State) :
    (∃ k, s.key = some k ∧ s.poll = s.keyTaken.endWait (opX s.ir) k) ∨ (s.key = none ∧ s.poll = s.keyTaken) := by
  cases hk : s.key with
  | some k => exact Or.inl ⟨k, rfl, by simp only [State.poll, hk]⟩
  | none => exact Or.inr ⟨rfl, by simp only [State.poll, hk]⟩

/-- In a ready state whose word at PC decodes, the step is that instruction's meaning at the fetched state. -/
theorem step_of_decoded {op : Word} {i : Instr} (hr : s.ready) (hf : s.begun.fetchWord = some op)
    (hd : decodeWord op = .ok i) : step s = exec i (s.begun.fetched op) := by
  obtain ⟨h1, h2, h3⟩ := hr
  have h1' : s.begun.runState = .running := h1
  have h2' : s.begun.waitKey = false := h2
  simp only [step, h3, perform, instructionStep, h1', h2', if_true, Bool.false_eq_true, if_false, cycle, hf, hd]

end Sys2Proof.Machine
end

