-- ==== Sys2Proof/Laws/PerInstr.lean ====
section
/-! SUPPORT. The family `OpcodeRow`: the word of every instruction lies in its row of `spec/opcode_table.json`, whose
`match` and `mask` are copied here from the table. -/

namespace Sys2Proof.Laws.OpcodeRow

/-- `mask` and `match` of the instruction's row. -/
def row : Instr → Word × Word
  | .cls _ => (0xF0FF, 0x00E0)
  | .ret _ => (0xF0FF, 0x00EE)
  | .jp _ => (0xF000, 0x1000)
  | .call _ => (0xF000, 0x2000)
  | .seImm _ _ => (0xF000, 0x3000)
  | .sneImm _ _ => (0xF000, 0x4000)
  | .seReg _ _ _ => (0xF000, 0x5000)
  | .ldImm _ _ => (0xF000, 0x6000)
  | .addImm _ _ => (0xF000, 0x7000)
  | .ldReg _ _ => (0xF00F, 0x8000)
  | .orReg _ _ => (0xF00F, 0x8001)
  | .andReg _ _ => (0xF00F, 0x8002)
  | .xorReg _ _ => (0xF00F, 0x8003)
  | .addReg _ _ => (0xF00F, 0x8004)
  | .subReg _ _ => (0xF00F, 0x8005)
  | .shr _ _ => (0xF00F, 0x8006)
  | .subnReg _ _ => (0xF00F, 0x8007)
  | .shl _ _ => (0xF00F, 0x800E)
  | .sneReg _ _ _ => (0xF000, 0x9000)
  | .ldI _ => (0xF000, 0xA000)
  | .jpV0 _ => (0xF000, 0xB000)
  | .rnd _ _ => (0xF000, 0xC000)
  | .drw _ _ _ => (0xF000, 0xD000)
  | .skp _ => (0xF0FF, 0xE09E)
  | .sknp _ => (0xF0FF, 0xE0A1)
  | .ldVxDt _ => (0xF0FF, 0xF007)
  | .ldVxK _ => (0xF0FF, 0xF00A)
  | .ldDtVx _ => (0xF0FF, 0xF015)
  | .ldStVx _ => (0xF0FF, 0xF018)
  | .addI _ => (0xF0FF, 0xF01E)
  | .ldF _ => (0xF0FF, 0xF029)
  | .ldB _ => (0xF0FF, 0xF033)
  | .storeRegs _ => (0xF0FF, 0xF055)
  | .loadRegs _ => (0xF0FF, 0xF065)

/-- The instruction's word is in its row: `w AND mask = match` (`spec/30_encoding.md` R85). -/
def Statement (i : Instr) : Prop := encode i &&& (row i).1 = (row i).2

theorem cls (ignored : Nibble) : Statement (.cls ignored) := by
  show packXNN _ _ _ &&& packXNN 0xF 0x0 0xFF = _
  rw [packXNN_and]
  simp
  rfl

theorem ret (ignored : Nibble) : Statement (.ret ignored) := by
  show packXNN _ _ _ &&& packXNN 0xF 0x0 0xFF = _
  rw [packXNN_and]
  simp
  rfl

theorem jp (nnn : Addr) : Statement (.jp nnn) := by
  show packNNN _ _ &&& packNNN 0xF 0x000 = _
  rw [packNNN_and]
  simp
  rfl

theorem call (nnn : Addr) : Statement (.call nnn) := by
  show packNNN _ _ &&& packNNN 0xF 0x000 = _
  rw [packNNN_and]
  simp
  rfl

theorem seImm (x : Reg) (nn : Byte) : Statement (.seImm x nn) := by
  show packXNN _ _ _ &&& packXNN 0xF 0x0 0x00 = _
  rw [packXNN_and]
  simp
  rfl

theorem sneImm (x : Reg) (nn : Byte) : Statement (.sneImm x nn) := by
  show packXNN _ _ _ &&& packXNN 0xF 0x0 0x00 = _
  rw [packXNN_and]
  simp
  rfl

theorem seReg (x : Reg) (y : Reg) (ignored : Nibble) : Statement (.seReg x y ignored) := by
  show packXYN _ _ _ _ &&& packXYN 0xF 0x0 0x0 0x0 = _
  rw [packXYN_and]
  simp
  rfl

theorem ldImm (x : Reg) (nn : Byte) : Statement (.ldImm x nn) := by
  show packXNN _ _ _ &&& packXNN 0xF 0x0 0x00 = _
  rw [packXNN_and]
  simp
  rfl

theorem addImm (x : Reg) (nn : Byte) : Statement (.addImm x nn) := by
  show packXNN _ _ _ &&& packXNN 0xF 0x0 0x00 = _
  rw [packXNN_and]
  simp
  rfl

theorem ldReg (x : Reg) (y : Reg) : Statement (.ldReg x y) := by
  show packXYN _ _ _ _ &&& packXYN 0xF 0x0 0x0 0xF = _
  rw [packXYN_and]
  simp
  rfl

theorem orReg (x : Reg) (y : Reg) : Statement (.orReg x y) := by
  show packXYN _ _ _ _ &&& packXYN 0xF 0x0 0x0 0xF = _
  rw [packXYN_and]
  simp
  rfl

theorem andReg (x : Reg) (y : Reg) : Statement (.andReg x y) := by
  show packXYN _ _ _ _ &&& packXYN 0xF 0x0 0x0 0xF = _
  rw [packXYN_and]
  simp
  rfl

theorem xorReg (x : Reg) (y : Reg) : Statement (.xorReg x y) := by
  show packXYN _ _ _ _ &&& packXYN 0xF 0x0 0x0 0xF = _
  rw [packXYN_and]
  simp
  rfl

theorem addReg (x : Reg) (y : Reg) : Statement (.addReg x y) := by
  show packXYN _ _ _ _ &&& packXYN 0xF 0x0 0x0 0xF = _
  rw [packXYN_and]
  simp
  rfl

theorem subReg (x : Reg) (y : Reg) : Statement (.subReg x y) := by
  show packXYN _ _ _ _ &&& packXYN 0xF 0x0 0x0 0xF = _
  rw [packXYN_and]
  simp
  rfl

theorem shr (x : Reg) (y : Reg) : Statement (.shr x y) := by
  show packXYN _ _ _ _ &&& packXYN 0xF 0x0 0x0 0xF = _
  rw [packXYN_and]
  simp
  rfl

theorem subnReg (x : Reg) (y : Reg) : Statement (.subnReg x y) := by
  show packXYN _ _ _ _ &&& packXYN 0xF 0x0 0x0 0xF = _
  rw [packXYN_and]
  simp
  rfl

theorem shl (x : Reg) (y : Reg) : Statement (.shl x y) := by
  show packXYN _ _ _ _ &&& packXYN 0xF 0x0 0x0 0xF = _
  rw [packXYN_and]
  simp
  rfl

theorem sneReg (x : Reg) (y : Reg) (ignored : Nibble) : Statement (.sneReg x y ignored) := by
  show packXYN _ _ _ _ &&& packXYN 0xF 0x0 0x0 0x0 = _
  rw [packXYN_and]
  simp
  rfl

theorem ldI (nnn : Addr) : Statement (.ldI nnn) := by
  show packNNN _ _ &&& packNNN 0xF 0x000 = _
  rw [packNNN_and]
  simp
  rfl

theorem jpV0 (nnn : Addr) : Statement (.jpV0 nnn) := by
  show packNNN _ _ &&& packNNN 0xF 0x000 = _
  rw [packNNN_and]
  simp
  rfl

theorem rnd (x : Reg) (nn : Byte) : Statement (.rnd x nn) := by
  show packXNN _ _ _ &&& packXNN 0xF 0x0 0x00 = _
  rw [packXNN_and]
  simp
  rfl

theorem drw (x : Reg) (y : Reg) (n : Nibble) : Statement (.drw x y n) := by
  show packXYN _ _ _ _ &&& packXYN 0xF 0x0 0x0 0x0 = _
  rw [packXYN_and]
  simp
  rfl

theorem skp (x : Reg) : Statement (.skp x) := by
  show packXNN _ _ _ &&& packXNN 0xF 0x0 0xFF = _
  rw [packXNN_and]
  simp
  rfl

theorem sknp (x : Reg) : Statement (.sknp x) := by
  show packXNN _ _ _ &&& packXNN 0xF 0x0 0xFF = _
  rw [packXNN_and]
  simp
  rfl

theorem ldVxDt (x : Reg) : Statement (.ldVxDt x) := by
  show packXNN _ _ _ &&& packXNN 0xF 0x0 0xFF = _
  rw [packXNN_and]
  simp
  rfl

theorem ldVxK (x : Reg) : Statement (.ldVxK x) := by
  show packXNN _ _ _ &&& packXNN 0xF 0x0 0xFF = _
  rw [packXNN_and]
  simp
  rfl

theorem ldDtVx (x : Reg) : Statement (.ldDtVx x) := by
  show packXNN _ _ _ &&& packXNN 0xF 0x0 0xFF = _
  rw [packXNN_and]
  simp
  rfl

theorem ldStVx (x : Reg) : Statement (.ldStVx x) := by
  show packXNN _ _ _ &&& packXNN 0xF 0x0 0xFF = _
  rw [packXNN_and]
  simp
  rfl

theorem addI (x : Reg) : Statement (.addI x) := by
  show packXNN _ _ _ &&& packXNN 0xF 0x0 0xFF = _
  rw [packXNN_and]
  simp
  rfl

theorem ldF (x : Reg) : Statement (.ldF x) := by
  show packXNN _ _ _ &&& packXNN 0xF 0x0 0xFF = _
  rw [packXNN_and]
  simp
  rfl

theorem ldB (x : Reg) : Statement (.ldB x) := by
  show packXNN _ _ _ &&& packXNN 0xF 0x0 0xFF = _
  rw [packXNN_and]
  simp
  rfl

theorem storeRegs (x : Reg) : Statement (.storeRegs x) := by
  show packXNN _ _ _ &&& packXNN 0xF 0x0 0xFF = _
  rw [packXNN_and]
  simp
  rfl

theorem loadRegs (x : Reg) : Statement (.loadRegs x) := by
  show packXNN _ _ _ &&& packXNN 0xF 0x0 0xFF = _
  rw [packXNN_and]
  simp
  rfl

end Sys2Proof.Laws.OpcodeRow
end

