-- ==== Sys2Proof/Tests/Slice0.lean ====
section
/-! SUPPORT. The author's tests. Expected values come from the vectors of `spec/95_test_vectors.md` (named F1, A1, … as
there) and from the examples of the rules; a `witness_` theorem shows that the hypotheses of an obligation can be met. -/

namespace Sys2Proof.Tests

open Sys2Proof Sys2Proof.Machine

/-! ### Well-formedness -/

theorem test_wellFormed_refuses_cls : Instr.wellFormed (.cls 1) = false := by decide
theorem test_wellFormed_refuses_ret : Instr.wellFormed (.ret 0xF) = false := by decide
theorem test_wellFormed_refuses_seReg : Instr.wellFormed (.seReg 0 1 7) = false := by decide
theorem test_wellFormed_refuses_sneReg : Instr.wellFormed (.sneReg 0 1 3) = false := by decide
theorem test_wellFormed_takes_any_y_of_a_shift : Instr.wellFormed (.shr 0 0xA) = true := by decide

/-! ### Decoding: words written out bit by bit from the formats of `spec/30_encoding.md` R71 to R78 -/

theorem test_decode_control_flow :
    decodeWord 0b0001_1010_1011_1100 = .ok (.jp 0xABC) ∧ decodeWord 0b0010_0011_0000_0000 = .ok (.call 0x300) ∧
    decodeWord 0b0000_0000_1110_1110 = .ok (.ret 0) ∧ decodeWord 0b0011_0001_0100_0010 = .ok (.seImm 1 0x42) ∧
    decodeWord 0b0100_0010_0100_0011 = .ok (.sneImm 2 0x43) ∧ decodeWord 0b0101_0011_0100_0000 = .ok (.seReg 3 4 0) ∧
    decodeWord 0b1001_0101_0110_0000 = .ok (.sneReg 5 6 0) ∧ decodeWord 0b1011_0011_0000_0001 = .ok (.jpV0 0x301) := by
  decide

theorem test_decode_register_ops :
    decodeWord 0b0110_1010_1111_1111 = .ok (.ldImm 0xA 0xFF) ∧
    decodeWord 0b0111_0001_0000_0010 = .ok (.addImm 1 2) ∧ decodeWord 0b1000_0001_0010_0000 = .ok (.ldReg 1 2) ∧
    decodeWord 0b1000_0001_0010_0001 = .ok (.orReg 1 2) ∧ decodeWord 0b1000_0001_0010_0010 = .ok (.andReg 1 2) ∧
    decodeWord 0b1000_0001_0010_0011 = .ok (.xorReg 1 2) ∧ decodeWord 0b1000_0001_0010_0100 = .ok (.addReg 1 2) ∧
    decodeWord 0b1000_0001_0010_0101 = .ok (.subReg 1 2) ∧ decodeWord 0b1000_0001_0010_0110 = .ok (.shr 1 2) ∧
    decodeWord 0b1000_0001_0010_0111 = .ok (.subnReg 1 2) ∧ decodeWord 0b1000_0001_0010_1110 = .ok (.shl 1 2) := by
  decide

theorem test_decode_index_random_draw_clear :
    decodeWord 0b1010_0010_0011_0100 = .ok (.ldI 0x234) ∧ decodeWord 0b1111_0010_0001_1110 = .ok (.addI 2) ∧
    decodeWord 0b1100_0001_0000_1111 = .ok (.rnd 1 0x0F) ∧ decodeWord 0b1101_0001_0010_0101 = .ok (.drw 1 2 5) ∧
    decodeWord 0b0000_0000_1110_0000 = .ok (.cls 0) := by decide

theorem test_decode_keypad_timers_memory :
    decodeWord 0b1110_0010_1001_1110 = .ok (.skp 2) ∧ decodeWord 0b1110_0010_1010_0001 = .ok (.sknp 2) ∧
    decodeWord 0b1111_0011_0000_1010 = .ok (.ldVxK 3) ∧ decodeWord 0b1111_0001_0000_0111 = .ok (.ldVxDt 1) ∧
    decodeWord 0b1111_0001_0001_0101 = .ok (.ldDtVx 1) ∧ decodeWord 0b1111_0001_0001_1000 = .ok (.ldStVx 1) ∧
    decodeWord 0b1111_0001_0010_1001 = .ok (.ldF 1) ∧ decodeWord 0b1111_0011_0011_0011 = .ok (.ldB 3) ∧
    decodeWord 0b1111_0010_0101_0101 = .ok (.storeRegs 2) ∧ decodeWord 0b1111_0010_0110_0101 = .ok (.loadRegs 2) := by
  decide

/-- R80, R81: the edges of the unimplemented space. -/
theorem test_decode_rejects :
    decodeWord 0x0123 = .error (.unimplemented 0x0123) ∧ decodeWord 0x8128 = .error (.unimplemented 0x8128) ∧
    decodeWord 0x812F = .error (.unimplemented 0x812F) ∧ decodeWord 0xE19F = .error (.unimplemented 0xE19F) ∧
    decodeWord 0xF1FF = .error (.unimplemented 0xF1FF) ∧ decode [0x60] = .error .truncated := by decide

theorem test_decode_bytes_high_byte_first : decode [0xA2, 0x34, 0x99] = .ok (.ldI 0x234, [0x99]) := by decide

theorem test_encode : encodeBytes (.drw 0 1 2) = [0xD0, 0x12] ∧ encodeBytes (.ldB 3) = [0xF3, 0x33] ∧
    encodeBytes (.jp 0x20C) = [0x12, 0x0C] ∧ decodeTableWord 16 0x8F14 = some (.addReg 0xF 1) ∧
    decodeTableWord 16 0x0000 = none := by decide

/-! ### One step of each instruction -/

/-- The reset state with these registers set. -/
def withRegs (rs : List (Reg × Byte)) : State := rs.foldl (fun s r => s.setReg r.1 r.2) State.reset

/-- The state after one step that runs the word `w`. -/
def after (s : State) (w : Nat) : State :=
  match step (s.withFetchWord 16 w) with
  | .next t => t
  | .fault _ => s
  | .refused _ => s

/-- Registers 0, 1 and VF. -/
def v01F (s : State) : Byte × Byte × Byte := (s.reg 0, s.reg 1, s.reg 0xF)

/-- The fault record, RUN_STATE and PC. -/
def stop (s : State) : FaultKind × Word × Word × RunState × Word :=
  (s.faultKind, s.faultOpcode, s.faultPc, s.runState, s.pc)

theorem test_F1_jp : (after State.reset 0x1ABC).pc = 0xABC := by decide
theorem test_F4_call : let t := after State.reset 0x2300
    (t.pc, t.sp, t.stack[0]) = (0x300, 1, 0x202) := by decide
theorem test_F6_call_overflow : let s := { State.reset with sp := 16 }
    stop (after s 0x2200) = (.stackOverflow, 0x2200, 0x200, .stopped, 0x202) ∧
      (after s 0x2200).outputs = [.diag .stackOverflow 0x2200 0x200] := by decide
theorem test_F5_ret : let t := after { State.reset with sp := 1, stack := State.reset.stack.set 0 0x206 } 0x00EE
    (t.pc, t.sp, t.stack[0]) = (0x206, 0, 0x206) := by decide
theorem test_F8_ret_underflow :
    stop (after State.reset 0x0FEE) = (.stackUnderflow, 0x0FEE, 0x200, .stopped, 0x202) := by decide
theorem test_F9_F10_seImm : (after (withRegs [(0, 0x42)]) 0x3042).pc = 0x204 ∧
    (after (withRegs [(0, 0x43)]) 0x3042).pc = 0x202 := by decide
theorem test_F11_F12_sneImm : (after (withRegs [(0, 0x42)]) 0x4042).pc = 0x202 ∧
    (after (withRegs [(0, 0x43)]) 0x4042).pc = 0x204 := by decide
theorem test_F14_F15_seReg : (after (withRegs [(0, 7), (1, 8)]) 0x5010).pc = 0x202 ∧
    (after (withRegs [(0, 7), (1, 7)]) 0x5017).pc = 0x204 := by decide
theorem test_F17_F18_sneReg : (after (withRegs [(0, 7), (1, 7)]) 0x9010).pc = 0x202 ∧
    (after (withRegs [(0, 7), (1, 8)]) 0x9010).pc = 0x204 := by decide
theorem test_F21_jpV0 : (after (withRegs [(0, 0xFF)]) 0xBFFF).pc = 0x10FE := by decide
theorem test_F24_fetch_fault : let t := step { State.reset with pc := 0xFFF }
    (match t with | .next u => stop u | _ => stop State.reset) = (.memoryBounds, 0, 0xFFF, .stopped, 0xFFF) := by decide

theorem test_A27_ldImm : (after State.reset 0x6AFF).reg 0xA = 0xFF := by decide
theorem test_A28_addImm : v01F (after (withRegs [(0, 1)]) 0x70FF) = (0, 0, 0) := by decide
theorem test_A26_ldReg : v01F (after (withRegs [(0, 1), (1, 0x77), (0xF, 1)]) 0x8010) = (0x77, 0x77, 1) := by decide
theorem test_A22_orReg : v01F (after (withRegs [(0, 0xF0), (1, 0x0F), (0xF, 1)]) 0x8011) = (0xFF, 0x0F, 1) := by
  decide
theorem test_A23_andReg : v01F (after (withRegs [(0, 0xF0), (1, 0x3C), (0xF, 1)]) 0x8012) = (0x30, 0x3C, 1) := by
  decide
theorem test_A24_xorReg : v01F (after (withRegs [(0, 0xF0), (1, 0x3C), (0xF, 1)]) 0x8013) = (0xCC, 0x3C, 1) := by
  decide
theorem test_A1_addReg : v01F (after (withRegs [(0, 0xFF), (1, 1)]) 0x8014) = (0, 1, 1) := by decide
theorem test_A4_addReg_flag_last : (after (withRegs [(0xF, 0xFF), (1, 2)]) 0x8F14).reg 0xF = 1 := by decide
theorem test_A6_subReg_equal : v01F (after (withRegs [(0, 5), (1, 5)]) 0x8015) = (0, 5, 1) := by decide
theorem test_A7_subReg_borrow : v01F (after (withRegs [(0, 5), (1, 6)]) 0x8015) = (0xFF, 6, 0) := by decide
theorem test_A13_shr : v01F (after (withRegs [(0, 0xFF), (1, 0xAA)]) 0x8016) = (0x7F, 0xAA, 1) := by decide
theorem test_A16_shr_vf : (after (withRegs [(0xF, 3)]) 0x8F16).reg 0xF = 1 := by decide
theorem test_A11_subnReg : v01F (after (withRegs [(0, 6), (1, 5)]) 0x8017) = (0xFF, 5, 0) := by decide
theorem test_A19_shl : v01F (after (withRegs [(0, 0x81)]) 0x801E) = (2, 0, 1) := by decide
theorem test_A20_shl : v01F (after (withRegs [(0, 0x40), (0xF, 1)]) 0x801E) = (0x80, 0, 0) := by decide

theorem test_X1_ldI : (after State.reset 0xAFFF).i = 0xFFF := by decide
theorem test_X2_addI : let t := after { withRegs [(0, 1)] with i := 0xFFF } 0xF01E
    (t.i, t.reg 0xF) = (0, 0) := by decide
theorem test_N1_rnd : (after { State.reset with rndFeed := [0xA7] } 0xC10F).reg 1 = 7 := by decide

theorem test_K1_K7_skp : (after { withRegs [(0, 7)] with keyFeed := [some 7] } 0xE09E).pc = 0x204 ∧
    (after { withRegs [(0, 0x17)] with keyFeed := [some 7] } 0xE09E).pc = 0x202 := by decide
theorem test_K3_K6_no_key : (after { withRegs [(0, 7)] with keyFeed := [none] } 0xE09E).pc = 0x202 ∧
    (after { withRegs [(0, 7)] with keyFeed := [none] } 0xE0A1).pc = 0x204 := by decide
theorem test_K4_sknp : (after { withRegs [(0, 7)] with keyFeed := [some 7] } 0xE0A1).pc = 0x202 := by decide
theorem test_K9_ldVxK : let t := after { State.reset with keyFeed := [some 0xB] } 0xF30A
    (t.reg 3, t.pc, t.waitKey) = (0x0B, 0x202, false) := by decide
theorem test_K10_wait : let t := after { State.reset with keyFeed := [none] } 0xF30A
    (t.reg 3, t.pc, t.waitKey, t.ir) = (0, 0x202, true, 0xF30A) := by decide

theorem test_T2_ldVxDt : (after { State.reset with dt := 0xFE } 0xF107).reg 1 = 0xFE := by decide
theorem test_T1_ldDtVx : (after (withRegs [(0, 5)]) 0xF015).dt = 5 := by decide
theorem test_T3_ldStVx : let t := after (withRegs [(0, 1)]) 0xF018
    (t.st, t.outputs) = (1, [.toneStart]) := by decide
theorem test_T4_ldStVx_zero : let t := after { State.reset with st := 4 } 0xF018
    (t.st, t.outputs) = (0, []) := by decide
theorem test_T3_T8_tick : let t := { State.reset with dt := 1, st := 1 }.tick
    (t.dt, t.st, t.outputs) = (0, 0, [.toneStop]) ∧ { State.reset with dt := 1, st := 2 }.tick.outputs = [] := by decide

theorem test_B3_ldF : (after (withRegs [(0, 0x1A)]) 0xF029).i = 0x032 := by decide
theorem test_B5_ldB : (after { withRegs [(0, 0xFF)] with i := 0x300 } 0xF033).readBytes 0x300 4 = [2, 5, 5, 0] := by
  decide
theorem test_B8_ldB_fault : let t := after { withRegs [(0, 7)] with i := 0xFFE } 0xF033
    stop t = (.memoryBounds, 0xF033, 0x200, .stopped, 0x202) ∧ t.readBytes 0xFFE 2 = [0, 0] := by decide
theorem test_B9_storeRegs : let t := after { withRegs [(0, 1), (1, 2), (2, 3), (3, 4)] with i := 0x300 } 0xF255
    (t.readBytes 0x300 4, t.i) = ([1, 2, 3, 0], 0x300) := by decide
theorem test_B11_storeRegs_fault : let t := after { withRegs [(0, 0xAA), (1, 0xBB)] with i := 0xFFF } 0xF155
    stop t = (.memoryBounds, 0xF155, 0x200, .stopped, 0x202) ∧ t.byteAt 0xFFF = 0 := by decide
theorem test_B13_loadRegs :
    let t := after { withRegs [(3, 0x33)] with i := 0x300, mem := [(0x300, 9), (0x301, 8), (0x302, 7), (0x303, 6)] } 0xF265
    (t.reg 0, t.reg 1, t.reg 2, t.reg 3) = (9, 8, 7, 0x33) := by decide
theorem test_B15_loadRegs_fault : let t := after { withRegs [(0, 5), (1, 6)] with i := 0xFFF } 0xF165
    stop t = (.memoryBounds, 0xF165, 0x200, .stopped, 0x202) ∧ v01F t = (5, 6, 0) := by decide

/-- G2: a sprite at the bottom right corner is clipped on both sides. -/
theorem test_G2_drw :
    let t := after { withRegs [(0, 0x3C), (1, 0x1E)] with i := 0x300, mem := [(0x300, 0xFF), (0x301, 0x81), (0x302, 0xFF)] }
      0xD013
    (([(59, 30), (60, 30), (63, 30), (60, 31), (61, 31), (0, 30), (60, 0)] : List (Nat × Nat)).map
      fun p => Framebuffer.lit t.fb p.1 p.2) = [false, true, true, true, false, false, false] ∧ t.reg 0xF = 0 := by
  decide +kernel
/-- G6: a row on the screen beyond memory. -/
theorem test_G6_drw_fault : let t := after { State.reset with i := 0xFFF, mem := [(0xFFF, 0x80)] } 0xD012
    stop t = (.memoryBounds, 0xD012, 0x200, .stopped, 0x202) ∧ t.fb = State.reset.fb := by decide +kernel
theorem test_G11_cls : let t := after { withRegs [(0xF, 1)] with fb := Framebuffer.toggle Framebuffer.dark 3 4 } 0x00E0
    t.fb = Framebuffer.dark ∧ t.reg 0xF = 1 := by decide +kernel

theorem test_Z1_unimplemented : let t := after State.reset 0x0000
    (stop t, t.outputs) =
      ((.none, 0, 0, .running, 0x202), [.diag .unimplementedInstruction 0x0000 0x200]) := by decide

/-- H2: one byte too many. -/
theorem test_H2_reset_rejected : (State.reset.resetCommand (List.replicate 3585 0)).outputs =
    [.diag .oversizedRom 3585 0] := by decide +kernel
/-- S1 through the reset command: the ROM's first word is the next one run. -/
theorem test_S1_reset_loads : let s := State.reset.resetCommand [0x60, 0x05]
    (match step s with | .next t => (t.reg 0, t.pc) | _ => (0, 0)) = (5, 0x202) := by decide
theorem test_H4_load_refused : (State.reset.loadCommand State.reset.snapshot).outputs =
    [.diag .loadStateRefused 0 0] := by rw [State.loadCommand_refused _ _ (Or.inl rfl)]; rfl

/-! ### The hypotheses of the obligations can be met -/

/-- A ready state: `60 05` at the reset vector. -/
def readyState : State := { State.reset with mem := [(0x200, 0x60), (0x201, 0x05)] }

/-- Running, in a key wait of `F30A`. -/
def waiting (k : Option Key) : State := { State.reset with waitKey := true, ir := 0xF30A, pc := 0x202, keyFeed := [k] }

/-- Paused. -/
def paused : State := { State.reset with runState := .paused }

/-- Stopped with an overflow on record. -/
def faulted : State :=
  { State.reset with runState := .stopped, faultKind := .stackOverflow, faultOpcode := 0x2200, faultPc := 0x200 }

/-- The state after reset with this event due. -/
def due (e : Event) : State := { State.reset with agenda := [e] }

theorem test_K12_poll :
    (match step (waiting (some 5)) with | .next t => (t.reg 3, t.waitKey, t.pc) | _ => (0, true, 0)) =
      (5, false, 0x202) := by decide

/-- K11: stop in a key wait, with IR cleared as R35 says. -/
theorem test_K11_stop_ends_the_wait : let t := (waiting none).command .stop
    (t.runState, t.waitKey, t.reg 3, t.faultKind, t.ir) = (.stopped, false, 0, .none, 0) := by decide

/-- Every row of the opcode table has a word that matches it: `word AND mask = match`. -/
theorem witness_DecoderFollowsOpcodeTable_1 :
    0x01E0#16 &&& 0xF0FF#16 = 0x00E0#16 ∧ 0x0FEE#16 &&& 0xF0FF#16 = 0x00EE#16 ∧ 0x1ABC#16 &&& 0xF000#16 = 0x1000#16 ∧
    0x2300#16 &&& 0xF000#16 = 0x2000#16 ∧ 0x3042#16 &&& 0xF000#16 = 0x3000#16 ∧ 0x4042#16 &&& 0xF000#16 = 0x4000#16 ∧
    0x5017#16 &&& 0xF000#16 = 0x5000#16 ∧ 0x6AFF#16 &&& 0xF000#16 = 0x6000#16 ∧ 0x70FF#16 &&& 0xF000#16 = 0x7000#16 ∧
    0x8010#16 &&& 0xF00F#16 = 0x8000#16 ∧ 0x8011#16 &&& 0xF00F#16 = 0x8001#16 ∧ 0x8012#16 &&& 0xF00F#16 = 0x8002#16 := by decide

theorem witness_DecoderFollowsOpcodeTable_2 :
    0x8013#16 &&& 0xF00F#16 = 0x8003#16 ∧ 0x8F14#16 &&& 0xF00F#16 = 0x8004#16 ∧ 0x8015#16 &&& 0xF00F#16 = 0x8005#16 ∧
    0x8016#16 &&& 0xF00F#16 = 0x8006#16 ∧ 0x8017#16 &&& 0xF00F#16 = 0x8007#16 ∧ 0x8FFE#16 &&& 0xF00F#16 = 0x800E#16 ∧
    0x901F#16 &&& 0xF000#16 = 0x9000#16 ∧ 0xAFFF#16 &&& 0xF000#16 = 0xA000#16 ∧ 0xBFFF#16 &&& 0xF000#16 = 0xB000#16 ∧
    0xC10F#16 &&& 0xF000#16 = 0xC000#16 ∧ 0xD012#16 &&& 0xF000#16 = 0xD000#16 ∧ 0xE29E#16 &&& 0xF0FF#16 = 0xE09E#16 := by decide

theorem witness_DecoderFollowsOpcodeTable_3 :
    0xE2A1#16 &&& 0xF0FF#16 = 0xE0A1#16 ∧ 0xF107#16 &&& 0xF0FF#16 = 0xF007#16 ∧ 0xF30A#16 &&& 0xF0FF#16 = 0xF00A#16 ∧
    0xF015#16 &&& 0xF0FF#16 = 0xF015#16 ∧ 0xF018#16 &&& 0xF0FF#16 = 0xF018#16 ∧ 0xF21E#16 &&& 0xF0FF#16 = 0xF01E#16 ∧
    0xF029#16 &&& 0xF0FF#16 = 0xF029#16 ∧ 0xF333#16 &&& 0xF0FF#16 = 0xF033#16 ∧ 0xFF55#16 &&& 0xF0FF#16 = 0xF055#16 ∧
    0xF265#16 &&& 0xF0FF#16 = 0xF065#16 := by decide

/-- SP at both ends of each clause: 1 and 16 for the return, 0 for the underflow. -/
theorem witness_UnexaminedBitsChangeNothing : 0 < ({ State.reset with sp := 1 } : State).sp.val ∧
    0 < ({ State.reset with sp := 16 } : State).sp.val ∧ State.reset.sp.val = 0 := by decide

theorem witness_EncodeOfDecodeIsIdentity : decodeWord 0x0FEE = .ok (.ret 0xF) := by decide

theorem witness_UnimplementedSpaceIsTheComplement : inUnimplementedSpace 0x0000 ∧ inUnimplementedSpace 0x812F ∧
    inUnimplementedSpace 0xE19F ∧ inUnimplementedSpace 0xF1FF ∧ ¬ inUnimplementedSpace 0x00E0 := by
  refine ⟨?_, ?_, ?_, ?_, ?_⟩ <;> unfold inUnimplementedSpace <;> decide

theorem witness_StepRunsTheDecodedInstruction : readyState.ready ∧ readyState.pc.toNat ≤ 0xFFE ∧
    (readyState.byteAt 0x200 ++ readyState.byteAt 0x201 : Word) = 0x6005 ∧ decodeWord 0x6005 = .ok (.ldImm 0 5) :=
  ⟨⟨rfl, rfl, rfl⟩, by decide, by decide, by decide⟩

/-- The last word a fetch can read (F23). -/
theorem witness_StepRunsTheDecodedInstruction_at_the_end :
    let s := { State.reset with pc := 0xFFE, mem := [(0xFFE, 0x60), (0xFFF, 0x07)] }
    s.ready ∧ s.pc.toNat ≤ 0xFFE ∧ (s.byteAt 0xFFE ++ s.byteAt 0xFFF : Word) = 0x6007 ∧
      decodeWord 0x6007 = .ok (.ldImm 0 7) := ⟨⟨rfl, rfl, rfl⟩, by decide, by decide, by decide⟩

theorem witness_PlacedWordRunsNext : Memory.wf State.reset.font State.reset.mem = true ∧
    decodeTableWord 16 0x6005 = some (.ldImm 0 5) ∧ State.reset.pc.toNat ≤ 0xFFE ∧
    0xFFE < ({ State.reset with pc := 0xFFF } : State).pc.toNat := by decide

theorem witness_UnimplementedWordIsLoggedAndPassed : State.reset.ready ∧ State.reset.pc.toNat ≤ 0xFFE ∧
    (State.reset.byteAt 0x200 ++ State.reset.byteAt 0x201 : Word) = 0 ∧ inUnimplementedSpace 0 :=
  ⟨⟨rfl, rfl, rfl⟩, by decide, by decide, by unfold inUnimplementedSpace; decide⟩

theorem witness_FetchBeyondMemoryFaults : ({ State.reset with pc := 0xFFF } : State).ready ∧
    0xFFE < ({ State.reset with pc := 0xFFF } : State).pc.toNat := ⟨⟨rfl, rfl, rfl⟩, by decide⟩

theorem witness_KeyWaitPolls : ∀ k : Option Key, (waiting k).runState = .running ∧ (waiting k).waitKey = true ∧
    (waiting k).due = .step ∧ (waiting k).key = k := fun _ => ⟨rfl, rfl, rfl, rfl⟩

theorem witness_NothingRunsUnlessRunning : paused.runState ≠ .running ∧ paused.due = .step ∧
    ({ paused with agenda := [.tick] } : State).due = .tick := by decide

/-- A destination other than VF, and VF itself: the clauses on `x` of the flag-writing instructions. -/
theorem witness_AddWithCarryResult_SubtractResults_ShiftResults : (0 : Reg) ≠ 0xF ∧ ¬ (0xF : Reg) ≠ 0xF := by decide

/-- A jump to 0xFFF and to 0x10FE leave a state whose next fetch is beyond memory (F3, F21). -/
theorem witness_JumpResults : 0xFFE < ({ State.reset with pc := 0xFFF } : State).pc.toNat ∧
    0xFFE < ({ State.reset with pc := 0x10FE } : State).pc.toNat ∧
    State.reset.runState = .running ∧ State.reset.waitKey = false ∧ State.reset.due = .step := by decide

theorem witness_CallResult : ({ State.reset with sp := 15 } : State).sp.val < 16 ∧
    ({ State.reset with sp := 16 } : State).sp.val = 16 := by decide

theorem witness_ReturnResult : 0 < ({ State.reset with sp := 1 } : State).sp.val ∧
    0 < ({ State.reset with sp := 16 } : State).sp.val ∧ State.reset.sp.val = 0 := by decide

theorem witness_RandomResult : ({ State.reset with rndFeed := [0xA7] } : State).rndFeed = 0xA7 :: [] ∧
    State.reset.rndFeed = [] := by decide

/-- G7 (31 rows below the top: one row on the screen, the last byte of memory) and G6 (two rows). -/
theorem witness_DrawResult :
    let s := { withRegs [(1, 31)] with i := 0xFFF }
    s.i.toNat + s.rowsOnScreen 1 0xF ≤ 0x1000 ∧ 0x1000 < s.i.toNat + s.rowsOnScreen 0 2 := by decide

/-- A lit cell under the glyph of 0, and no lit cell under it. -/
theorem witness_DrawResult_flag :
    ({ State.reset with fb := Framebuffer.toggle Framebuffer.dark 0 0 } : State).spritePixel 0 1 1 0 0 = true ∧
    Framebuffer.lit (Framebuffer.toggle Framebuffer.dark 0 0) 0 0 = true ∧
    (∀ col row, col < 64 → row < 32 → State.reset.spritePixel 0 1 1 col row = true →
      Framebuffer.lit State.reset.fb col row = false) :=
  ⟨by decide, by decide, fun col row _ _ _ => Framebuffer.lit_dark col row⟩

theorem witness_DrawingTwiceRestoresTheScreen : ∃ t u : State, State.reset.i.toNat + State.reset.rowsOnScreen 1 5 ≤ 0x1000 ∧
    exec (.drw 0 1 5) State.reset = .next t ∧ exec (.drw 0 1 5) t = .next u ∧
    (t.reg 0).toNat % 64 = (State.reset.reg 0).toNat % 64 ∧ (t.reg 1).toNat % 32 = (State.reset.reg 1).toNat % 32 :=
  ⟨_, _, by decide, rfl, rfl, rfl, rfl⟩

theorem witness_KeySkipResults_KeyLoadResult : ({ State.reset with keyFeed := [some 7] } : State).key = some 7 ∧
    ({ State.reset with keyFeed := [none] } : State).key = none ∧ (waiting none).ir = 0xF#4 ++ 3#4 ++ 0x0A#8 := by decide

theorem witness_TimerInstructionResults : (withRegs [(0, 1)]).reg 0 ≠ 0 ∧ State.reset.reg 0 = 0 := by decide

theorem witness_TickResult : (due .tick).runState = .running ∧ (due .tick).due = .tick ∧
    ({ due .tick with st := 1 } : State).st = 1 ∧ (due .tick).st ≠ 1 ∧
    (due .step).due ≠ .tick := by decide

theorem witness_TicksCountTimersToZeroOnce : let s := { State.reset with st := 3, agenda := [.tick, .tick, .tick, .step] }
    s.runState = .running ∧ s.agenda = List.replicate 3 .tick ++ [.step] := by decide

/-- B7 and B8. -/
theorem witness_DecimalDigitsResult : Memory.wf State.reset.font State.reset.mem = true ∧
    ({ State.reset with i := 0xFFD } : State).i.toNat + 2 ≤ 0xFFF ∧
    0xFFF < ({ State.reset with i := 0xFFE } : State).i.toNat + 2 := by decide

/-- B10 and B11. -/
theorem witness_StoreRegistersResult_LoadRegistersResult : Memory.wf State.reset.font State.reset.mem = true ∧
    ({ State.reset with i := 0xFFF } : State).i.toNat + (0 : Reg).toNat ≤ 0xFFF ∧
    0xFFF < ({ State.reset with i := 0xFFF } : State).i.toNat + (1 : Reg).toNat := by decide

theorem witness_StoredBytesAreFetchedAsStored : let s := { State.reset with i := 0x200 }
    Memory.wf s.font s.mem = true ∧ s.i.toNat = s.pc.toNat ∧ 1 ≤ (1 : Reg).toNat ∧ s.i.toNat + (1 : Reg).toNat ≤ 0xFFF := by
  decide

/-- One run-on and one fault: the premises of the statements over every instruction. -/
theorem witness_FaultsArePreciseAndAttributed_EachStoreHasItsWriters_RegistersChangeOnlyAsNamed :
    State.reset.runState = .running ∧
      exec (.addReg 0 1) State.reset = .next (State.reset.setRegAndFlag 0 0 false) ∧
      exec (.ret 0) State.reset = .next (State.reset.raiseIn (.ret 0) .stackUnderflow) ∧
      writesFlag (.addReg 0 1) = true := ⟨rfl, rfl, rfl, rfl⟩

theorem witness_ProgramsCannotSeeControlState :
    let s' := { State.reset with runState := .paused, faultKind := .stackOverflow, cycleRate := 7, st := 5 }
    Memory.wf State.reset.font State.reset.mem = true ∧ Memory.wf s'.font s'.mem = true ∧
      SameExcept [.runState, .faultRecord, .cycleRate, .soundTimer, .outputs, .agenda] State.reset s' ∧
      exec (.jp 0x300) State.reset = .next (State.reset.jump 0x300) ∧ exec (.jp 0x300) s' = .next (s'.jump 0x300) := by
  refine ⟨rfl, rfl, fun p hp => ?_, rfl, rfl⟩
  cases p <;> first | exact absurd hp (by decide) | exact fun _ => rfl | exact ⟨rfl, rfl⟩ | rfl

/-- A step that emits `tone_start` and a tick that emits `tone_stop`. -/
theorem witness_TonePulsesComeFromTwoPlaces :
    step { withRegs [(0, 1)] with mem := [(0x200, 0xF0), (0x201, 0x18)] } =
      .next { withRegs [(0, 1)] with
        mem := [(0x200, 0xF0), (0x201, 0x18)], pc := 0x202, ir := 0xF018, st := 1, outputs := [.toneStart] } ∧
    step { due .tick with st := 1 } = .next { State.reset with outputs := [.toneStop] } := ⟨by rfl, by rfl⟩

theorem witness_StoppedIsLeftOnlyByReset : faulted.runState = .stopped ∧ faulted.faultRecorded ∧ faulted.Inv ∧
    step faulted = .next faulted :=
  ⟨rfl, by unfold State.faultRecorded; decide, ⟨by decide, by decide, by decide, fun _ => rfl⟩, by rfl⟩

/-- A key wait meets the invariant too, and goes on. -/
theorem witness_StepKeepsTheInvariant : (waiting none).Inv ∧
    step (waiting none) = .next { waiting none with keyFeed := [], keyDraws := 1 } :=
  ⟨⟨by decide, by decide, by decide, by decide⟩, by rfl⟩

theorem witness_StepKeepsTheRanges : State.reset.InRange ∧
    ∃ t, step State.reset = .next t :=
  ⟨⟨by decide, fun k _ hk => absurd hk (Nat.not_lt_zero k), fun _ h => nomatch h⟩, ⟨_, rfl⟩⟩

theorem witness_RunStateCommands : (due (.command .pause)).due = .command .pause ∧
    (due (.command .unpause)).due = .command .unpause ∧ (due (.command .stop)).due = .command .stop ∧
    faulted.runState = .stopped ∧ State.reset.runState ≠ .stopped := by decide

/-- H2b and H2: the longest ROM that is accepted, the empty one, and the shortest that is rejected. -/
theorem witness_ResetReinitialisesEverything_OversizedRomIsRejected :
    (∀ rom, (due (.command (.reset rom))).due = .command (.reset rom)) ∧ (List.replicate 3584 (0 : Byte)).length ≤ 3584 ∧
      ([] : List Byte).length ≤ 3584 ∧ 3584 < (List.replicate 3585 (0 : Byte)).length :=
  ⟨fun _ => rfl, by rw [List.length_replicate], Nat.zero_le _, by rw [List.length_replicate]; decide⟩

theorem witness_SaveStateHandsOutTheFields : (due (.command .saveState)).due = .command .saveState := rfl

theorem witness_SaveThenLoadRestoresEveryField :
    let u := { paused with agenda := [.command (.loadState State.reset.snapshot)] }
    Memory.wf State.reset.font State.reset.mem = true ∧ u.runState ≠ .running ∧
      u.due = .command (.loadState State.reset.snapshot) := ⟨rfl, by decide, rfl⟩

/-- H5 and its fellows: one field out of range or of a wrong length at a time, and a Running machine. -/
theorem witness_LoadStateIsRefused :
    (∀ f, (due (.command (.loadState f))).due = .command (.loadState f)) ∧ State.reset.runState = .running ∧
      16 < ({ State.reset.snapshot with sp := 17 } : Snapshot).sp ∧
      0xFFF < ({ State.reset.snapshot with i := 0x1000 } : Snapshot).i ∧
      ({ State.reset.snapshot with mem := [] } : Snapshot).mem.length ≠ 4096 ∧
      ({ State.reset.snapshot with v := [0] } : Snapshot).v.length ≠ 16 ∧
      ({ State.reset.snapshot with stack := [] } : Snapshot).stack.length ≠ 16 ∧
      ({ State.reset.snapshot with fb := [2] } : Snapshot).fb.length ≠ 2048 ∧
      ∃ b ∈ ({ State.reset.snapshot with fb := [2] } : Snapshot).fb, b ≠ 0 ∧ b ≠ 1 :=
  ⟨fun _ => rfl, rfl, by decide, by decide, by decide, by decide, by decide, by decide, 2, List.mem_singleton.mpr rfl,
    by decide, by decide⟩

theorem witness_FramebufferReads : (due (.readCell 2047)).due = .readCell 2047 ∧
    (due (.tornStep [⟨0, true⟩])).agenda = .tornStep [⟨0, true⟩] :: [] ∧
    ∃ u, step { due (.tornStep [⟨0, true⟩]) with agenda := .step :: [] } = .next u := ⟨rfl, rfl, ⟨_, rfl⟩⟩

theorem witness_CycleRateIsAHostRegister : (due (.setCycleRate 500)).due = .setCycleRate 500 ∧
    (∀ rate, (due .step).due ≠ .setCycleRate rate) ∧ ∃ t, step (due .step) = .next t :=
  ⟨rfl, fun _ h => (nomatch h), _, rfl⟩

/-- The entry of an underflow, and what the ports show of it. -/
theorem witness_StatusOutputCodes : let t := State.reset.raiseIn (.ret 0) .stackUnderflow
    FatalEntry .stackUnderflow 0x00EE (State.reset.pc - 2) State.reset t ∧
      t.statusPort = (0, 3, 0x00EE, State.reset.pc - 2) := by
  refine ⟨⟨rfl, rfl, rfl, rfl, rfl, rfl, fun p hp => ?_⟩, rfl⟩
  cases p <;> first | exact absurd hp (by decide) | exact fun _ => rfl | exact ⟨rfl, rfl⟩ | rfl

/-- A commanded stop, and a fetch at 0xFFF (F24): both from a Running state that meets the invariant. -/
theorem witness_StoppedShowsItsCause :
    let c := due (.command .stop)
    let f := { State.reset with pc := 0xFFF }
    (c.Inv ∧ c.runState = .running ∧ ∃ t, step c = .next t ∧ t.runState = .stopped ∧ t.statusPort = (0, 0, 0, 0)) ∧
    (f.Inv ∧ f.runState = .running ∧ ∃ t, step f = .next t ∧ t.runState = .stopped ∧
      t.statusPort = (0, 4, 0, 0xFFF)) :=
  ⟨⟨⟨by decide, by decide, by decide, by decide⟩, rfl, _, rfl, rfl, rfl⟩,
    ⟨by decide, by decide, by decide, by decide⟩, rfl, _, rfl, rfl, rfl⟩

theorem witness_FinishedProgramSpins : let s := { State.reset with mem := [(0x200, 0x12)] }
    s.finished ∧ s.runState = .running ∧ s.due = .step := ⟨⟨0x200, by decide, by decide, rfl⟩, rfl, rfl⟩

/-! ### The way a program comes to run (assumption log 7) -/

/-- From reset, with nothing placed, one command event and the program's first instruction is next. -/
theorem test_program_from_reset :
    (match step { State.reset with agenda := [.command (.reset [0xA2, 0x34])] } with
      | .next t => (match step t with | .next u => (u.i, u.pc) | _ => (0, 0))
      | _ => (0, 0)) = (0x234, 0x202) := by decide

end Sys2Proof.Tests
end

/-! PROOFS. The host's side of the state (`spec/10_state.md` R34, R36): the font table, CYCLE_RATE and the agenda. No
instruction, tick or command writes any of the three; the host's write of CYCLE_RATE is the one exception. -/

namespace Sys2Proof.Machine

section

variable {s t u : State}

/-- `t` has the font table, the CYCLE_RATE and the agenda of `s`. -/
structure SameHostSide (s t : State) : Prop where
  font : t.font = s.font
  cycleRate : t.cycleRate = s.cycleRate
  agenda : t.agenda = s.agenda

theorem SameHostSide.trans (h : SameHostSide s t) (h' : SameHostSide t u) : SameHostSide s u :=
  ⟨h'.font.trans h.font, h'.cycleRate.trans h.cycleRate, h'.agenda.trans h.agenda⟩

/-! ### What the branching operations can do -/

/-- An outcome chosen by a condition is one of its two branches. -/
theorem next_ite_cases {c : Prop} [Decidable c] {a b : State}
    (h : (if c then .next a else .next b : Host.Outcome State Fault Refusal) = .next t) :
    (c ∧ t = a) ∨ (¬ c ∧ t = b) := by
  split at h
  · exact Or.inl ⟨‹c›, (Host.Outcome.next.inj h).symm⟩
  · exact Or.inr ⟨‹¬ c›, (Host.Outcome.next.inj h).symm⟩

/-- `2NNN` pushes PC and jumps, or overflows the stack (R102). -/
theorem execCall_cases {nnn : Addr} (h : execCall nnn s = .next t) :
    (∃ u, s.push s.pc = some u ∧ t = u.jump (jumpTarget nnn)) ∨
      (s.push s.pc = none ∧ t = s.raiseIn (.call nnn) .stackOverflow) := by
  unfold execCall at h
  split at h
  · exact Or.inl ⟨_, ‹_›, (Host.Outcome.next.inj h).symm⟩
  · exact Or.inr ⟨‹_›, (Host.Outcome.next.inj h).symm⟩

/-- `00EE` pops an address and jumps to it, or underflows the stack (R103). -/
theorem execRet_cases {g : Nibble} (h : execRet g s = .next t) :
    (∃ r u, s.pop = some (r, u) ∧ t = u.jump r) ∨ (s.pop = none ∧ t = s.raiseIn (.ret g) .stackUnderflow) := by
  unfold execRet at h
  split at h
  · exact Or.inl ⟨_, _, ‹_›, (Host.Outcome.next.inj h).symm⟩
  · exact Or.inr ⟨‹_›, (Host.Outcome.next.inj h).symm⟩

/-- `FX0A` takes a sample, and stores the key it shows or enters the wait (R168). -/
theorem execLdVxK_cases {x : Reg} (h : execLdVxK x s = .next t) :
    (∃ k, s.key = some k ∧ t = s.keyTaken.setReg x (keyByte k)) ∨
      (s.key = none ∧ t = s.keyTaken.enterWait (encode (.ldVxK x))) := by
  unfold execLdVxK at h
  obtain rfl := Host.Outcome.next.inj h
  cases hk : s.key with
  | some k => exact Or.inl ⟨k, rfl, rfl⟩
  | none => exact Or.inr ⟨rfl, rfl⟩

/-! ### The shared operations -/

theorem State.push_sameHostSide {r : Word} (h : s.push r = some u) : SameHostSide s u := by
  unfold State.push at h
  split at h
  · obtain rfl := Option.some.inj h
    exact ⟨rfl, rfl, rfl⟩
  · exact nomatch h

theorem State.pop_sameHostSide {r : Word} (h : s.pop = some (r, u)) : SameHostSide s u := by
  unfold State.pop at h
  split at h
  · obtain ⟨-, rfl⟩ := Prod.mk.inj (Option.some.inj h)
    exact ⟨rfl, rfl, rfl⟩
  · exact nomatch h

theorem State.setRegsFrom_sameHostSide (s : State) (k : Nat) (bytes : List Byte) :
    SameHostSide s (s.setRegsFrom k bytes) :=
  have e := State.setRegsFrom_frame bytes s k
  ⟨(congrArg State.font e :), (congrArg State.cycleRate e :), (congrArg State.agenda e :)⟩

theorem State.writeBytes_sameHostSide (s : State) (a : Nat) (bytes : List Byte) :
    SameHostSide s (s.writeBytes a bytes) :=
  have e := State.writeBytes_frame bytes s a
  ⟨(congrArg State.font e :), (congrArg State.cycleRate e :), (congrArg State.agenda e :)⟩

theorem State.raiseIn_sameHostSide (s : State) (i : Instr) (k : FaultKind) : SameHostSide s (s.raiseIn i k) :=
  ⟨rfl, rfl, rfl⟩

theorem State.emit_sameHostSide (s : State) (os : List Output) : SameHostSide s (s.emit os) := ⟨rfl, rfl, rfl⟩

theorem State.poll_sameHostSide (s : State) : SameHostSide s s.poll := by
  rcases s.poll_cases with ⟨k, -, e⟩ | ⟨-, e⟩
  · rw [e]; exact ⟨rfl, rfl, rfl⟩
  · rw [e]; exact ⟨rfl, rfl, rfl⟩

theorem State.tickIfRunning_sameHostSide (s : State) : SameHostSide s s.tickIfRunning := by
  unfold State.tickIfRunning
  split
  · exact ⟨s.tick_font, s.tick_cycleRate, s.tick_agenda⟩
  · exact ⟨rfl, rfl, rfl⟩

/-- No command writes the host's side, a reset and a load-state included. -/
theorem State.command_sameHostSide (s : State) (c : Command) : SameHostSide s (s.command c) := by
  cases c with
  | reset rom =>
    show SameHostSide s (s.resetCommand rom)
    unfold State.resetCommand
    split
    · exact ⟨rfl, rfl, rfl⟩
    · exact s.emit_sameHostSide _
  | pause | unpause => exact ⟨rfl, rfl, rfl⟩
  | stop =>
    show SameHostSide s s.stop
    unfold State.stop
    split
    · exact ⟨rfl, rfl, rfl⟩
    · exact ⟨rfl, rfl, rfl⟩
  | saveState => exact s.emit_sameHostSide _
  | loadState f =>
    show SameHostSide s (s.loadCommand f)
    unfold State.loadCommand
    split
    · exact ⟨rfl, rfl, rfl⟩
    · exact s.emit_sameHostSide _

/-! ### Instructions, cycles, events -/

/-- No instruction writes the host's side. -/
theorem exec_sameHostSide {i : Instr} (h : exec i s = .next t) : SameHostSide s t := by
  cases i with
  | call nnn =>
    rcases execCall_cases h with ⟨u, hu, rfl⟩ | ⟨-, rfl⟩
    · exact (State.push_sameHostSide hu).trans ⟨rfl, rfl, rfl⟩
    · exact s.raiseIn_sameHostSide _ _
  | ret g =>
    rcases execRet_cases h with ⟨r, u, hu, rfl⟩ | ⟨-, rfl⟩
    · exact (State.pop_sameHostSide hu).trans ⟨rfl, rfl, rfl⟩
    · exact s.raiseIn_sameHostSide _ _
  | drw x y n =>
    rcases next_ite_cases h with ⟨-, rfl⟩ | ⟨-, rfl⟩
    · exact ⟨rfl, rfl, rfl⟩
    · exact s.raiseIn_sameHostSide _ _
  | ldVxK x =>
    rcases execLdVxK_cases h with ⟨k, -, rfl⟩ | ⟨-, rfl⟩
    · exact ⟨rfl, rfl, rfl⟩
    · exact ⟨rfl, rfl, rfl⟩
  | ldB x | storeRegs x =>
    rcases next_ite_cases h with ⟨-, rfl⟩ | ⟨-, rfl⟩
    · exact s.writeBytes_sameHostSide _ _
    · exact s.raiseIn_sameHostSide _ _
  | loadRegs x =>
    rcases next_ite_cases h with ⟨-, rfl⟩ | ⟨-, rfl⟩
    · exact s.setRegsFrom_sameHostSide _ _
    · exact s.raiseIn_sameHostSide _ _
  | _ =>
    obtain rfl := Host.Outcome.next.inj h
    exact ⟨rfl, rfl, rfl⟩

theorem cycle_sameHostSide (h : cycle s = .next t) : SameHostSide s t := by
  rcases cycle_cases h with ⟨-, rfl⟩ | ⟨op, i, -, -, he⟩ | ⟨op, -, -, rfl⟩
  · exact ⟨rfl, rfl, rfl⟩
  · have hf : SameHostSide s (s.fetched op) := ⟨rfl, rfl, rfl⟩
    exact hf.trans (exec_sameHostSide he)
  · exact ⟨rfl, rfl, rfl⟩

theorem instructionStep_sameHostSide (h : instructionStep s = .next t) : SameHostSide s t := by
  rcases instructionStep_cases h with ⟨-, rfl⟩ | ⟨-, -, rfl⟩ | ⟨-, -, hc⟩
  · exact ⟨rfl, rfl, rfl⟩
  · exact s.poll_sameHostSide
  · exact cycle_sameHostSide hc

/-- Of all events only a write of CYCLE_RATE touches the host's side. -/
theorem perform_sameHostSide {e : Event} (he : ∀ rate, e ≠ .setCycleRate rate) (h : perform s e = .next t) :
    SameHostSide s t := by
  rcases perform_cases h with ⟨-, hi⟩ | ⟨reads, u, -, hi, rfl⟩ | ⟨-, rfl⟩ | ⟨c, -, rfl⟩ | ⟨rate, hr, -⟩ | ⟨p, -, rfl⟩
  · exact instructionStep_sameHostSide hi
  · exact (instructionStep_sameHostSide hi).trans (u.emit_sameHostSide _)
  · exact s.tickIfRunning_sameHostSide
  · exact s.command_sameHostSide c
  · exact absurd hr (he rate)
  · exact s.emit_sameHostSide _

/-- No event changes the font table, the write of CYCLE_RATE included (R36). -/
theorem perform_font {e : Event} (h : perform s e = .next t) : t.font = s.font := by
  by_cases he : ∃ rate, e = .setCycleRate rate
  · obtain ⟨rate, rfl⟩ := he
    obtain rfl := Host.Outcome.next.inj h
    rfl
  · exact (perform_sameHostSide (fun rate hr => he ⟨rate, hr⟩) h).font

/-! ### The write of CYCLE_RATE -/

theorem step_of_due_setCycleRate {rate : CycleRate} (h : s.due = .setCycleRate rate) :
    step s = .next { s.begun with cycleRate := rate } := by
  rw [step, h, perform]

/-- The write of CYCLE_RATE leaves every part but CYCLE_RATE and the agenda as it was. -/
theorem setCycleRate_frame (s : State) (rate : CycleRate) :
    SameExcept [.cycleRate, .agenda] s { s.begun with cycleRate := rate } := by
  intro p hp
  cases p with
  | cycleRate | agenda => exact absurd hp (by decide)
  | registers | memory => exact fun _ => rfl
  | faultRecord => exact ⟨rfl, rfl, rfl⟩
  | keyInput | randomInput => exact ⟨rfl, rfl⟩
  | index | pc | stackEntries | sp | delayTimer | soundTimer | screen | font | runState | keyWait | ir | outputs => rfl

end

/-- Settles O56: the write stores its value and nothing else, and no other event touches the host's side of the
state. -/
theorem cycleRateIsAHostRegister : Obligations.CycleRateIsAHostRegister := by
  unfold Obligations.CycleRateIsAHostRegister
  constructor
  · intro s rate hdue
    exact ⟨_, step_of_due_setCycleRate hdue, rfl, rfl, setCycleRate_frame s rate⟩
  · intro s t h
    have hp : perform s.begun s.due = .next t := h
    exact ⟨(perform_font hp).trans s.begun_font,
      fun hdue => (perform_sameHostSide hdue hp).cycleRate.trans s.begun_cycleRate⟩

end Sys2Proof.Machine

/-! PROOFS. Words of a table row (`spec/30_encoding.md` R85): the fields a row's mask keeps are those of its match. -/

namespace Sys2Proof

section

variable {w m k : Word}

/-- A mask that keeps all of the top nibble fixes the top-level code. -/
theorem opTop_of_masked (hm : opTop m = 0xF) (h : w &&& m = k) : opTop w = opTop k :=
  calc opTop w = opTop w &&& BitVec.allOnes 4 := BitVec.and_allOnes.symm
    _ = opTop w &&& opTop m := by rw [hm]; rfl
    _ = opTop (w &&& m) := BitVec.extractLsb'_and.symm
    _ = opTop k := by rw [h]

/-- A mask that keeps all of the low byte fixes the key of the families 0x0, 0xE and 0xF. -/
theorem opNN_of_masked (hm : opNN m = 0xFF) (h : w &&& m = k) : opNN w = opNN k :=
  calc opNN w = opNN w &&& BitVec.allOnes 8 := BitVec.and_allOnes.symm
    _ = opNN w &&& opNN m := by rw [hm]; rfl
    _ = opNN (w &&& m) := BitVec.extractLsb'_and.symm
    _ = opNN k := by rw [h]

theorem decodeFamily0_ret (h : opNN w = Opcode.ret) : decodeFamily0 w = .ok (.ret (opX w)) := by
  simp [decodeFamily0, h]

end

end Sys2Proof

/-! PROOFS. Control flow (`spec/40_control_flow.md` R101 to R108): jumps, calls, returns and skips. -/

namespace Sys2Proof.Machine

section

variable (s : State)

/-! ### Frames -/

/-- A part that is in fact the same need not stand in the list of written parts. -/
theorem SameExcept.drop {p : Part} {ps : List Part} {s t : State} (h : SameExcept (p :: ps) s t) (hp : p.same s t) :
    SameExcept ps s t := by
  intro q hq
  by_cases e : q = p
  · exact e ▸ hp
  · exact h q (List.not_mem_cons_of_ne_of_not_mem e hq)

/-- Writing the stack, SP and PC leaves every other part as it was. -/
theorem stackSpPc_frame (stack : Vector Word 16) (sp : Fin 17) (pc : Word) :
    SameExcept [.stackEntries, .sp, .pc] s { s with stack := stack, sp := sp, pc := pc } := by
  intro p hp
  cases p with
  | stackEntries | sp | pc => exact absurd hp (by decide)
  | registers | memory => exact fun _ => rfl
  | faultRecord => exact ⟨rfl, rfl, rfl⟩
  | keyInput | randomInput => exact ⟨rfl, rfl⟩
  | index | delayTimer | soundTimer | screen | font | runState | cycleRate | keyWait | ir | agenda | outputs => rfl

theorem spPc_frame (sp : Fin 17) (pc : Word) : SameExcept [.sp, .pc] s { s with sp := sp, pc := pc } :=
  (stackSpPc_frame s s.stack sp pc).drop rfl

theorem State.jump_frame (target : Word) : SameExcept [.pc] s (s.jump target) :=
  (spPc_frame s s.sp target).drop rfl

/-! ### The next fetch -/

theorem cycle_of_fetchWord_none (h : s.fetchWord = none) : cycle s = .next s.fetchFault := by simp only [cycle, h]

/-- A ready state with PC above 0xFFE takes the fetch fault (R204). -/
theorem step_of_fetch_beyond_memory (hr : s.ready) (hpc : 0xFFE < s.pc.toNat) :
    step s = .next s.begun.fetchFault := by
  obtain ⟨hrun, hwait, hdue⟩ := hr
  have hrun' : s.begun.runState = .running := hrun
  have hwait' : s.begun.waitKey = false := hwait
  have hcycle := cycle_of_fetchWord_none s.begun (s.begun.fetchWord_of_gt hpc)
  simp only [step, hdue, perform, instructionStep, hrun', hwait', if_true, Bool.false_eq_true, if_false, hcycle]

/-- The check of PC is the fetch's own, so no instruction has to make it (R103, R108). -/
theorem nextFetchIsChecked : NextFetchIsChecked s := fun hpc hrun hwait hdue =>
  ⟨_, step_of_fetch_beyond_memory s ⟨hrun, hwait, hdue⟩ hpc, s.begun.fetchFault_entry⟩

/-! ### Jumps -/

theorem toNat_jumpTarget (nnn : Addr) : (jumpTarget nnn).toNat = nnn.toNat := by
  simp only [jumpTarget, BitVec.toNat_setWidth]
  omega

/-- The sum is exact: 12 bits and 8 bits cannot pass 16 (R108). -/
theorem toNat_offsetTarget (nnn : Addr) (b : Byte) : (offsetTarget nnn b).toNat = nnn.toNat + b.toNat := by
  simp only [offsetTarget, BitVec.toNat_add, BitVec.toNat_setWidth]
  omega

/-! ### Calls and returns -/

theorem exec_call_of_room (nnn : Addr) (h : s.sp.val < 16) :
    exec (.call nnn) s = .next { s with
      stack := s.stack.set s.sp.val s.pc h, sp := ⟨s.sp.val + 1, by omega⟩, pc := jumpTarget nnn } := by
  show execCall nnn s = _
  rw [execCall, s.push_of_lt s.pc h]
  rfl

theorem exec_call_of_full (nnn : Addr) (h : s.sp.val = 16) :
    exec (.call nnn) s = .next (s.raiseIn (.call nnn) .stackOverflow) := by
  show execCall nnn s = _
  rw [execCall, s.push_of_full s.pc h]

theorem exec_ret_of_pos (g : Nibble) (h : 0 < s.sp.val) :
    exec (.ret g) s = .next { s with
      sp := ⟨s.sp.val - 1, by omega⟩, pc := s.stack[s.sp.val - 1]'(by have := s.sp.isLt; omega) } := by
  show execRet g s = _
  rw [execRet, s.pop_of_pos h]
  rfl

theorem exec_ret_of_empty (g : Nibble) (h : s.sp.val = 0) :
    exec (.ret g) s = .next (s.raiseIn (.ret g) .stackUnderflow) := by
  show execRet g s = _
  rw [execRet, s.pop_of_empty h]

/-! ### Skips -/

/-- A skip whose test decides `P` moves PC on exactly where `P` holds, and writes nothing but PC. -/
theorem State.skipIf_spec {c : Bool} {P : Prop} [Decidable P] (h : c = true ↔ P) :
    (s.skipIf c).pc = (if P then s.pc + 2 else s.pc) ∧ SameExcept [.pc] s (s.skipIf c) :=
  ⟨by simp only [State.skipIf_pc, h], s.jump_frame _⟩

end

/-- Settles O21: the call is a push followed by a jump where the stack has room, and the fault entry where it is
full. -/
theorem callResult : Obligations.CallResult := by
  unfold Obligations.CallResult
  refine ⟨fun w h => decodeWord_call (opTop_of_masked rfl h), fun s nnn => ⟨fun hroom => ?_, fun hfull => ?_⟩⟩
  · refine ⟨_, exec_call_of_room s nnn hroom, rfl, toNat_jumpTarget nnn, fun k hk => ?_, stackSpPc_frame s _ _ _⟩
    simp only [Vector.getElem_set, eq_comm]
  · exact ⟨_, exec_call_of_full s nnn hfull, s.raiseIn_entry (.call nnn) .stackOverflow⟩

/-- Settles O22: the return is a pop whose value goes to PC unchecked, and the fault entry where nothing is pushed. -/
theorem returnResult : Obligations.ReturnResult := by
  unfold Obligations.ReturnResult
  refine ⟨fun w h => ?_, fun s g => ⟨fun hpos => ?_, fun hempty => ?_⟩⟩
  · exact (decodeWord_family0 (opTop_of_masked rfl h)).trans (decodeFamily0_ret (opNN_of_masked rfl h))
  · exact ⟨_, exec_ret_of_pos s g hpos, rfl, rfl, spPc_frame s _ _, nextFetchIsChecked _⟩
  · exact ⟨_, exec_ret_of_empty s g hempty, s.raiseIn_entry (.ret g) .stackUnderflow⟩

/-- Settles O20: both instructions are jumps, to targets that fit in 16 bits. -/
theorem jumpResults : Obligations.JumpResults := by
  unfold Obligations.JumpResults
  refine ⟨fun w h => decodeWord_jp (opTop_of_masked rfl h), fun w h => decodeWord_jpV0 (opTop_of_masked rfl h),
    fun s nnn => ⟨?_, ?_⟩⟩
  · exact ⟨_, rfl, toNat_jumpTarget nnn, s.jump_frame _, nextFetchIsChecked _⟩
  · exact ⟨_, rfl, toNat_offsetTarget nnn (s.reg 0), s.jump_frame _, nextFetchIsChecked _⟩

/-- Settles O23: each instruction is a skip whose test decides its condition. -/
theorem skipResults : Obligations.SkipResults := by
  unfold Obligations.SkipResults
  refine ⟨fun w h => decodeWord_seImm (opTop_of_masked rfl h), fun w h => decodeWord_sneImm (opTop_of_masked rfl h),
    fun w h => decodeWord_seReg (opTop_of_masked rfl h), fun w h => decodeWord_sneReg (opTop_of_masked rfl h),
    fun s x y nn g => ⟨?_, ?_, ?_, ?_⟩⟩
  · exact ⟨_, rfl, s.skipIf_spec beq_iff_eq⟩
  · exact ⟨_, rfl, s.skipIf_spec bne_iff_ne⟩
  · exact ⟨_, rfl, s.skipIf_spec beq_iff_eq⟩
  · exact ⟨_, rfl, s.skipIf_spec bne_iff_ne⟩

end Sys2Proof.Machine

/-! PROOFS. Rows of the family 0x8 (`spec/30_encoding.md` R76, R85): the key is the low nibble. -/

namespace Sys2Proof

section

variable {w m k : Word} {i : Instr}

/-- A mask that keeps all of the low nibble fixes the key of the family 0x8. -/
theorem opN_of_masked (hm : opN m = 0xF) (h : w &&& m = k) : opN w = opN k :=
  calc opN w = opN w &&& BitVec.allOnes 4 := BitVec.and_allOnes.symm
    _ = opN w &&& opN m := by rw [hm]; rfl
    _ = opN (w &&& m) := BitVec.extractLsb'_and.symm
    _ = opN k := by rw [h]

/-- A word of a row of the family 0x8 decodes as the row's key says. -/
theorem decodeWord_of_family8_row (hk : opTop k = Opcode.family8) (h : w &&& 0xF00F#16 = k)
    (hkey : opN w = opN k → decodeFamily8 w = .ok i) : decodeWord w = .ok i :=
  (decodeWord_family8 ((opTop_of_masked rfl h).trans hk)).trans (hkey (opN_of_masked rfl h))

theorem decodeFamily8_ldReg (h : opN w = Opcode.ldReg) : decodeFamily8 w = .ok (.ldReg (opX w) (opY w)) := by
  simp [decodeFamily8, h]

theorem decodeFamily8_orReg (h : opN w = Opcode.orReg) : decodeFamily8 w = .ok (.orReg (opX w) (opY w)) := by
  simp [decodeFamily8, h]

theorem decodeFamily8_andReg (h : opN w = Opcode.andReg) : decodeFamily8 w = .ok (.andReg (opX w) (opY w)) := by
  simp [decodeFamily8, h]

theorem decodeFamily8_xorReg (h : opN w = Opcode.xorReg) : decodeFamily8 w = .ok (.xorReg (opX w) (opY w)) := by
  simp [decodeFamily8, h]

theorem decodeFamily8_addReg (h : opN w = Opcode.addReg) : decodeFamily8 w = .ok (.addReg (opX w) (opY w)) := by
  simp [decodeFamily8, h]

theorem decodeFamily8_subReg (h : opN w = Opcode.subReg) : decodeFamily8 w = .ok (.subReg (opX w) (opY w)) := by
  simp [decodeFamily8, h]

theorem decodeFamily8_shr (h : opN w = Opcode.shr) : decodeFamily8 w = .ok (.shr (opX w) (opY w)) := by
  simp [decodeFamily8, h]

theorem decodeFamily8_subnReg (h : opN w = Opcode.subnReg) : decodeFamily8 w = .ok (.subnReg (opX w) (opY w)) := by
  simp [decodeFamily8, h]

theorem decodeFamily8_shl (h : opN w = Opcode.shl) : decodeFamily8 w = .ok (.shl (opX w) (opY w)) := by
  simp [decodeFamily8, h]

end

/-- Settles O5: the top nibble picks the row or the family, and in a family the key decides. -/
theorem specWordsDecode : Obligations.SpecWordsDecode := by
  unfold Obligations.SpecWordsDecode
  exact ⟨decodeWord_ldImm rfl, decodeWord_ldI rfl, decodeWord_jp rfl, decodeWord_call rfl,
    (decodeWord_family0 rfl).trans rfl, (decodeWord_family0 rfl).trans rfl, decodeWord_seReg rfl,
    decodeWord_of_family8_row rfl rfl decodeFamily8_addReg, decodeWord_of_family8_row rfl rfl decodeFamily8_shl,
    decodeWord_rnd rfl, decodeWord_drw rfl, (decodeWord_familyE rfl).trans rfl, (decodeWord_familyE rfl).trans rfl,
    (decodeWord_familyF rfl).trans rfl, (decodeWord_familyF rfl).trans rfl, (decodeWord_familyF rfl).trans rfl,
    (decodeWord_family8 rfl).trans rfl, (decodeWord_family0 rfl).trans rfl, (decodeWord_familyE rfl).trans rfl,
    (decodeWord_familyF rfl).trans rfl⟩

end Sys2Proof

/-! PROOFS. Register operations (`spec/41_register_ops.md` R120 to R131): what a register write leaves, with and without
the flag, and the results and flags as numbers. -/

namespace Sys2Proof.Machine

/-! ### Register writes -/

section

variable (s : State)

/-- Writing the register file leaves every other part as it was. -/
theorem registers_frame (v : Vector Byte 16) : SameExcept [.registers] s { s with v := v } := by
  intro p hp
  cases p with
  | registers => exact absurd hp (by decide)
  | memory => exact fun _ => rfl
  | faultRecord => exact ⟨rfl, rfl, rfl⟩
  | keyInput | randomInput => exact ⟨rfl, rfl⟩
  | index | pc | stackEntries | sp | delayTimer | soundTimer | screen | font | runState | cycleRate | keyWait | ir
  | agenda | outputs => rfl

/-- A register write leaves the byte in its register and writes nothing else (R121 to R126). -/
theorem State.setReg_spec (x : Reg) {b result : Byte} (hb : b = result) :
    (s.setReg x b).reg x = result ∧ SameRegsBut [x] s (s.setReg x b) ∧
      SameExcept [.registers] s (s.setReg x b) := by
  refine ⟨(s.reg_setReg_same x b).trans hb, fun r hr => ?_, registers_frame s _⟩
  rw [State.reg_setReg, if_neg (List.ne_of_not_mem_cons hr)]

/-- A flag-writing instruction whose flag decides `P` leaves VF as 1 exactly where `P` holds, the result in VX unless
that is VF, and writes nothing else (R120). -/
theorem State.setRegAndFlag_spec (x : Reg) {b result : Byte} {c : Bool} {P : Prop} [Decidable P] (hb : b = result)
    (hc : c = true ↔ P) :
    (x ≠ 0xF → (s.setRegAndFlag x b c).reg x = result) ∧
      (s.setRegAndFlag x b c).reg 0xF = (if P then 1 else 0) ∧
      SameRegsBut [x, 0xF] s (s.setRegAndFlag x b c) ∧ SameExcept [.registers] s (s.setRegAndFlag x b c) := by
  refine ⟨fun hx => ?_, ?_, fun r hr => ?_, registers_frame s _⟩
  · rw [State.reg_setRegAndFlag, if_neg hx, if_pos rfl, hb]
  · simp only [State.reg_setRegAndFlag, if_true, flagByte, hc]
  · obtain ⟨hrx, hrf⟩ : r ≠ x ∧ r ≠ 0xF := by simpa using hr
    rw [State.reg_setRegAndFlag, if_neg hrf, if_neg hrx]

end

/-! ### Results and flags as numbers -/

section

variable (a b : Byte)

theorem byte_add_eq : a + b = BitVec.ofNat 8 ((a.toNat + b.toNat) % 256) := by
  apply BitVec.eq_of_toNat_eq
  simp

theorem byte_sub_eq : a - b = BitVec.ofNat 8 ((256 + a.toNat - b.toNat) % 256) := by
  apply BitVec.eq_of_toNat_eq
  rw [BitVec.toNat_sub, BitVec.toNat_ofNat]
  omega

theorem byte_shiftRight_eq : a >>> 1 = BitVec.ofNat 8 (a.toNat / 2) := by
  apply BitVec.eq_of_toNat_eq
  rw [BitVec.toNat_ushiftRight, Nat.shiftRight_eq_div_pow, BitVec.toNat_ofNat]
  omega

theorem byte_shiftLeft_eq : a <<< 1 = BitVec.ofNat 8 (2 * a.toNat % 256) := by
  apply BitVec.eq_of_toNat_eq
  rw [BitVec.toNat_shiftLeft, Nat.shiftLeft_eq, BitVec.toNat_ofNat]
  omega

theorem carry_iff : carry a b = true ↔ a.toNat + b.toNat > 255 := decide_eq_true_iff

theorem noBorrow_iff : noBorrow a b = true ↔ a.toNat ≥ b.toNat := decide_eq_true_iff

/-- Bit 0 is the remainder mod 2. -/
theorem shiftedOutRight_iff : shiftedOutRight a = true ↔ a.toNat % 2 = 1 := by
  rw [shiftedOutRight, BitVec.getLsbD, Nat.testBit_zero, decide_eq_true_iff]

/-- Bit 7 of a byte is its most significant bit. -/
theorem shiftedOutLeft_iff : shiftedOutLeft a = true ↔ a.toNat ≥ 128 :=
  calc shiftedOutLeft a = true ↔ a.msb = true := by rw [BitVec.msb_eq_getLsbD_last]; rfl
    _ ↔ a.toNat ≥ 128 := by rw [BitVec.msb_eq_decide, decide_eq_true_iff]

end

/-! ### The instructions -/

/-- Settles O17: the flag is the carry, written after the sum. -/
theorem addWithCarryResult : Obligations.AddWithCarryResult := by
  unfold Obligations.AddWithCarryResult
  refine ⟨fun w h => decodeWord_of_family8_row rfl h decodeFamily8_addReg, fun s x y => ?_⟩
  exact ⟨_, rfl, s.setRegAndFlag_spec x (byte_add_eq _ _) (carry_iff _ _)⟩

/-- Settles O18: the two subtractions differ in the order of the operands, and so do their flags. -/
theorem subtractResults : Obligations.SubtractResults := by
  unfold Obligations.SubtractResults
  refine ⟨fun w h => decodeWord_of_family8_row rfl h decodeFamily8_subReg,
    fun w h => decodeWord_of_family8_row rfl h decodeFamily8_subnReg, fun s x y => ⟨?_, ?_⟩⟩
  · exact ⟨_, rfl, s.setRegAndFlag_spec x (byte_sub_eq _ _) (noBorrow_iff _ _)⟩
  · exact ⟨_, rfl, s.setRegAndFlag_spec x (byte_sub_eq _ _) (noBorrow_iff _ _)⟩

/-- Settles O19: both shifts move VX itself, and the flag is the bit at the end it moves towards. -/
theorem shiftResults : Obligations.ShiftResults := by
  unfold Obligations.ShiftResults
  refine ⟨fun w h => decodeWord_of_family8_row rfl h decodeFamily8_shr,
    fun w h => decodeWord_of_family8_row rfl h decodeFamily8_shl, fun s x y => ⟨?_, ?_⟩⟩
  · exact ⟨_, rfl, s.setRegAndFlag_spec x (byte_shiftRight_eq _) (shiftedOutRight_iff _)⟩
  · exact ⟨_, rfl, s.setRegAndFlag_spec x (byte_shiftLeft_eq _) (shiftedOutLeft_iff _)⟩

/-- Settles O14: the instruction is one register write. -/
theorem loadImmediateResult : Obligations.LoadImmediateResult := by
  unfold Obligations.LoadImmediateResult
  refine ⟨fun w h => decodeWord_ldImm (opTop_of_masked rfl h), fun s x nn => ?_⟩
  exact ⟨_, rfl, s.setReg_spec x rfl⟩

/-- Settles O15: the instruction is one register write, of the sum mod 256. -/
theorem addImmediateResult : Obligations.AddImmediateResult := by
  unfold Obligations.AddImmediateResult
  refine ⟨fun w h => decodeWord_addImm (opTop_of_masked rfl h), fun s x nn => ?_⟩
  exact ⟨_, rfl, s.setReg_spec x (byte_add_eq _ _)⟩

/-- Settles O16: each of the four is one register write, whose byte alone differs. -/
theorem copyAndLogicResults : Obligations.CopyAndLogicResults := by
  unfold Obligations.CopyAndLogicResults
  refine ⟨fun w h => decodeWord_of_family8_row rfl h decodeFamily8_ldReg,
    fun w h => decodeWord_of_family8_row rfl h decodeFamily8_orReg,
    fun w h => decodeWord_of_family8_row rfl h decodeFamily8_andReg,
    fun w h => decodeWord_of_family8_row rfl h decodeFamily8_xorReg, fun s x y => ⟨?_, ?_, ?_, ?_⟩⟩
  · exact ⟨_, rfl, s.setReg_spec x rfl⟩
  · exact ⟨_, rfl, s.setReg_spec x rfl⟩
  · exact ⟨_, rfl, s.setReg_spec x rfl⟩
  · exact ⟨_, rfl, s.setReg_spec x rfl⟩

end Sys2Proof.Machine

/-! PROOFS. Rows of the family 0xF (`spec/30_encoding.md` R78, R85): the key is the low byte. -/

namespace Sys2Proof

section

variable {w k : Word} {i : Instr}

/-- A word of a row of the family 0xF decodes as the row's key says. -/
theorem decodeWord_of_familyF_row (hk : opTop k = Opcode.familyF) (h : w &&& 0xF0FF#16 = k)
    (hkey : opNN w = opNN k → decodeFamilyF w = .ok i) : decodeWord w = .ok i :=
  (decodeWord_familyF ((opTop_of_masked rfl h).trans hk)).trans (hkey (opNN_of_masked rfl h))

theorem decodeFamilyF_addI (h : opNN w = Opcode.addI) : decodeFamilyF w = .ok (.addI (opX w)) := by
  simp [decodeFamilyF, h]

end

end Sys2Proof

/-! PROOFS. Index-register operations (`spec/42_index_ops.md` R140, R141): both are one write of I. -/

namespace Sys2Proof.Machine

/-- Writing I leaves every other part as it was. -/
theorem State.setIndex_frame (s : State) (a : Addr) : SameExcept [.index] s (s.setIndex a) := by
  intro p hp
  cases p with
  | index => exact absurd hp (by decide)
  | registers | memory => exact fun _ => rfl
  | faultRecord => exact ⟨rfl, rfl, rfl⟩
  | keyInput | randomInput => exact ⟨rfl, rfl⟩
  | pc | stackEntries | sp | delayTimer | soundTimer | screen | font | runState | cycleRate | keyWait | ir | agenda
  | outputs => rfl

/-- The sum wraps at the 12 bits of I (R141). -/
theorem toNat_indexSum (a : Addr) (b : Byte) : (indexSum a b).toNat = (a.toNat + b.toNat) % 4096 := by
  simp only [indexSum, BitVec.toNat_add, BitVec.toNat_setWidth, Nat.reducePow, Nat.add_mod_mod]

/-- Settles O24: each of the two is one write of I, of the immediate and of the sum mod 4096. -/
theorem indexResults : Obligations.IndexResults := by
  unfold Obligations.IndexResults
  refine ⟨fun w h => decodeWord_ldI (opTop_of_masked rfl h),
    fun w h => decodeWord_of_familyF_row rfl h decodeFamilyF_addI, fun s nnn x => ⟨?_, ?_⟩⟩
  · exact ⟨_, rfl, s.setIndex_i nnn, s.setIndex_frame nnn⟩
  · exact ⟨_, rfl, toNat_indexSum s.i (s.reg x), s.setIndex_frame _⟩

end Sys2Proof.Machine

/-! PROOFS. The sprite draw (`spec/44_sprite_draw.md` R155 to R157): the branches of `DXYN`, the cells it leaves and the
collision it reports. -/

namespace Sys2Proof.Machine

section

variable (s : State)

/-- What `DXYN` draws on the screen of `s`: the framebuffer it leaves and whether it hit a lit cell (R155). -/
def State.drawing (x y : Reg) (n : Nibble) : Framebuffer × Bool :=
  drawRows (spriteColumn (s.reg x)) (spriteRow (s.reg y)) (s.readBytes s.i.toNat (s.rowsOnScreen y n)) (s.fb, false)

/-! ### The two branches -/

theorem exec_drw_of_inBounds (x y : Reg) (n : Nibble) (h : s.i.toNat + s.rowsOnScreen y n ≤ 0x1000) :
    exec (.drw x y n) s = .next (s.drawn (s.drawing x y n)) :=
  if_pos ((inBounds_iff _ _).mpr h)

theorem exec_drw_of_outOfBounds (x y : Reg) (n : Nibble) (h : 0x1000 < s.i.toNat + s.rowsOnScreen y n) :
    exec (.drw x y n) s = .next (s.raiseIn (.drw x y n) .memoryBounds) :=
  if_neg fun hin => absurd ((inBounds_iff _ _).mp hin) (Nat.not_le_of_gt h)

/-! ### The cells and the collision -/

/-- The rows drawn end at the bottom of the screen (R155, R156). -/
theorem State.spriteRow_add_length_le (y : Reg) (n : Nibble) :
    spriteRow (s.reg y) + (s.readBytes s.i.toNat (s.rowsOnScreen y n)).length ≤ 32 := by
  simp only [State.length_readBytes, spriteRow, State.rowsOnScreen]
  omega

/-- A draw XORs the sprite's pixel onto each cell of the screen (R155). -/
theorem State.lit_drawing (x y : Reg) (n : Nibble) {col row : Nat} (hcol : col < 64) (hrow : row < 32) :
    Framebuffer.lit (s.drawing x y n).1 col row = (Framebuffer.lit s.fb col row ^^ s.spritePixel x y n col row) := by
  rw [← s.spriteBit_readBytes x y n col row hrow]
  exact (drawRows_spec _ _ _ s.fb false (s.spriteRow_add_length_le y n)).1 col row hcol

/-- A draw reports a hit exactly where a lit cell of the screen is under a 1 pixel; a cell off the screen is not lit. -/
theorem State.drawing_hit_iff (x y : Reg) (n : Nibble) :
    (s.drawing x y n).2 = true ↔ ∃ col row, col < 64 ∧ row < 32 ∧ s.spritePixel x y n col row = true ∧
      Framebuffer.lit s.fb col row = true := by
  refine (drawRows_spec _ _ _ s.fb false (s.spriteRow_add_length_le y n)).2.trans ⟨?_, ?_⟩
  · rintro (h | ⟨col, row, hcol, hbit, hlit⟩)
    · exact absurd h (by decide)
    · have hrow : row < 32 := by
        by_contra hoff
        rw [Framebuffer.lit_of_off _ fun hon => hoff hon.2] at hlit
        exact absurd hlit (by decide)
      exact ⟨col, row, hcol, hrow, s.spriteBit_readBytes x y n col row hrow ▸ hbit, hlit⟩
  · rintro ⟨col, row, hcol, hrow, hpixel, hlit⟩
    exact Or.inr ⟨col, row, hcol, (s.spriteBit_readBytes x y n col row hrow).trans hpixel, hlit⟩

/-! ### What a draw writes -/

theorem State.drawn_flag (d : Framebuffer × Bool) : (s.drawn d).reg 0xF = flagByte d.2 := by
  rw [State.reg_drawn, if_pos rfl]

theorem State.drawn_sameRegsBut (d : Framebuffer × Bool) : SameRegsBut [0xF] s (s.drawn d) := by
  intro r hr
  rw [State.reg_drawn, if_neg (List.ne_of_not_mem_cons hr)]

/-- A draw writes the screen and VF, and leaves every other part as it was. -/
theorem State.drawn_frame (d : Framebuffer × Bool) : SameExcept [.registers, .screen] s (s.drawn d) := by
  intro p hp
  cases p with
  | registers | screen => exact absurd hp (by decide)
  | memory => exact fun _ => rfl
  | faultRecord => exact ⟨rfl, rfl, rfl⟩
  | keyInput | randomInput => exact ⟨rfl, rfl⟩
  | index | pc | stackEntries | sp | delayTimer | soundTimer | font | runState | cycleRate | keyWait | ir | agenda
  | outputs => rfl

end

/-- Settles O26: the instruction is a draw cell by cell, whose hit is its flag, and the fault entry where a row on the
screen lies beyond memory. -/
theorem drawResult : Obligations.DrawResult := by
  unfold Obligations.DrawResult
  refine ⟨fun w h => decodeWord_drw (opTop_of_masked rfl h), fun s x y n => ⟨fun hin => ?_, fun hout => ?_⟩⟩
  · refine ⟨_, exec_drw_of_inBounds s x y n hin, fun col row => s.lit_drawing x y n, fun hhit => ?_, fun hmiss => ?_,
      s.drawn_sameRegsBut _, s.drawn_frame _⟩
    · rw [State.drawn_flag, (s.drawing_hit_iff x y n).mpr hhit]
      rfl
    · have hnone : (s.drawing x y n).2 = false := by
        rw [← Bool.not_eq_true, s.drawing_hit_iff x y n]
        rintro ⟨col, row, hcol, hrow, hpixel, hlit⟩
        exact Bool.false_ne_true ((hmiss col row hcol hrow hpixel).symm.trans hlit)
      rw [State.drawn_flag, hnone]
      rfl
  · exact ⟨_, exec_drw_of_outOfBounds s x y n hout, s.raiseIn_entry (.drw x y n) .memoryBounds⟩

end Sys2Proof.Machine

/-! PROOFS. Rows of the family 0xE (`spec/30_encoding.md` R77, R85) and the row of `FX0A`: the key is the low byte. -/

namespace Sys2Proof

section

variable {w k : Word} {i : Instr}

/-- A word of a row of the family 0xE decodes as the row's key says. -/
theorem decodeWord_of_familyE_row (hk : opTop k = Opcode.familyE) (h : w &&& 0xF0FF#16 = k)
    (hkey : opNN w = opNN k → decodeFamilyE w = .ok i) : decodeWord w = .ok i :=
  (decodeWord_familyE ((opTop_of_masked rfl h).trans hk)).trans (hkey (opNN_of_masked rfl h))

theorem decodeFamilyE_skp (h : opNN w = Opcode.skp) : decodeFamilyE w = .ok (.skp (opX w)) := by
  simp [decodeFamilyE, h]

theorem decodeFamilyE_sknp (h : opNN w = Opcode.sknp) : decodeFamilyE w = .ok (.sknp (opX w)) := by
  simp [decodeFamilyE, h]

theorem decodeFamilyF_ldVxK (h : opNN w = Opcode.ldVxK) : decodeFamilyF w = .ok (.ldVxK (opX w)) := by
  simp [decodeFamilyF, h]

end

end Sys2Proof

/-! PROOFS. Keypad instructions and the key wait (`spec/45_keypad.md` R165 to R169): the sample is taken first, then the
instruction skips, stores the key or enters the wait. -/

namespace Sys2Proof.Machine

section

variable (s : State)

/-! ### Frames -/

/-- Of two operations in a row the parts written are those of the second and those of the first. -/
theorem SameExcept.trans_append {ps qs : List Part} {s t u : State} (h : SameExcept ps s t) (h' : SameExcept qs t u) :
    SameExcept (qs ++ ps) s u :=
  (h.mono fun _ => List.mem_append_right qs).trans (h'.mono fun _ => List.mem_append_left ps)

/-- Taking a key sample writes the key input alone (R165). -/
theorem State.keyTaken_frame : SameExcept [.keyInput] s s.keyTaken := by
  intro p hp
  cases p with
  | keyInput => exact absurd hp (by decide)
  | registers | memory => exact fun _ => rfl
  | faultRecord => exact ⟨rfl, rfl, rfl⟩
  | randomInput => exact ⟨rfl, rfl⟩
  | index | pc | stackEntries | sp | delayTimer | soundTimer | screen | font | runState | cycleRate | keyWait | ir
  | agenda | outputs => rfl

/-- Entering the wait writes IR and WAITKEY alone (R168). -/
theorem State.enterWait_frame (w : Word) : SameExcept [.ir, .keyWait] s (s.enterWait w) := by
  intro p hp
  cases p with
  | ir | keyWait => exact absurd hp (by decide)
  | registers | memory => exact fun _ => rfl
  | faultRecord => exact ⟨rfl, rfl, rfl⟩
  | keyInput | randomInput => exact ⟨rfl, rfl⟩
  | index | pc | stackEntries | sp | delayTimer | soundTimer | screen | font | runState | cycleRate | agenda
  | outputs => rfl

/-- A skip on a key sample writes PC and the key input alone. -/
theorem State.skipIf_keyTaken_frame (c : Bool) : SameExcept [.pc, .keyInput] s (s.keyTaken.skipIf c) :=
  s.keyTaken_frame.trans_append (s.keyTaken.jump_frame _)

/-! ### The comparison of a sample with a register -/

/-- The key code is compared with all 8 bits of the register (R166). -/
@[simp] theorem keyMatches_some (k : Key) (b : Byte) : keyMatches (some k) b = decide (k.toNat = b.toNat) := by
  have hk : (keyByte k).toNat = k.toNat := BitVec.toNat_setWidth_of_le (by decide)
  rw [Bool.eq_iff_iff, decide_eq_true_iff, ← hk, BitVec.toNat_inj]
  exact beq_iff_eq

@[simp] theorem keyMatches_none (b : Byte) : keyMatches none b = false := rfl

/-! ### `FX0A` and the wait -/

theorem exec_ldVxK_of_key (x : Reg) {k : Key} (h : s.key = some k) :
    exec (.ldVxK x) s = .next (s.keyTaken.setReg x (keyByte k)) := by
  show execLdVxK x s = _
  rw [execLdVxK, h]

theorem exec_ldVxK_of_noKey (x : Reg) (h : s.key = none) :
    exec (.ldVxK x) s = .next (s.keyTaken.enterWait (encode (.ldVxK x))) := by
  show execLdVxK x s = _
  rw [execLdVxK, h]

/-- In a key wait the step of a Running machine is one poll (R169). -/
theorem step_of_keyWait (hrun : s.runState = .running) (hwait : s.waitKey = true) (hdue : s.due = .step) :
    step s = .next s.begun.poll := by
  have hrun' : s.begun.runState = .running := hrun
  have hwait' : s.begun.waitKey = true := hwait
  simp only [step, hdue, perform, instructionStep, hrun', hwait', if_true]

theorem State.poll_of_key {k : Key} (h : s.key = some k) : s.poll = s.keyTaken.endWait (opX s.ir) k := by
  simp only [State.poll, h]

theorem State.poll_of_noKey (h : s.key = none) : s.poll = s.keyTaken := by simp only [State.poll, h]

/-- No poll moves PC (R169). -/
theorem State.poll_pc : s.poll.pc = s.pc := by
  rcases s.poll_cases with ⟨k, -, e⟩ | ⟨-, e⟩
  · rw [e]; rfl
  · rw [e]; rfl

end

/-- Settles O29: both instructions skip on one sample, and their tests are complements of each other. -/
theorem keySkipResults : Obligations.KeySkipResults := by
  unfold Obligations.KeySkipResults
  refine ⟨fun w h => decodeWord_of_familyE_row rfl h decodeFamilyE_skp,
    fun w h => decodeWord_of_familyE_row rfl h decodeFamilyE_sknp, fun s x => ⟨?_, ?_⟩⟩
  · refine ⟨_, rfl, fun k hk => ?_, fun hk => ?_, rfl, rfl, s.skipIf_keyTaken_frame _⟩
    · simp [hk]
    · simp [hk]
  · refine ⟨_, rfl, fun k hk => ?_, fun hk => ?_, rfl, rfl, s.skipIf_keyTaken_frame _⟩
    · simp [hk]
    · simp [hk]

/-- Settles O30: with a key the instruction is one register write; with none it enters the wait, whose polls read the
register's number back from IR. -/
theorem keyLoadResult : Obligations.KeyLoadResult := by
  unfold Obligations.KeyLoadResult
  refine ⟨fun w h => decodeWord_of_familyF_row rfl h decodeFamilyF_ldVxK,
    fun s x => ⟨fun k hk => ?_, fun hk => ?_, fun hrun hwait hdue hir => ?_⟩⟩
  · obtain ⟨hreg, hregs, hframe⟩ := s.keyTaken.setReg_spec x (rfl : keyByte k = k.setWidth 8)
    exact ⟨_, exec_ldVxK_of_key s x hk, hreg, hregs, rfl, rfl, s.keyTaken_frame.trans_append hframe⟩
  · exact ⟨_, exec_ldVxK_of_noKey s x hk, rfl, rfl, rfl, rfl,
      s.keyTaken_frame.trans_append (s.keyTaken.enterWait_frame _)⟩
  · have hx : opX s.begun.ir = x := (congrArg opX hir).trans (opX_packXNN 0xF x 0x0A)
    refine ⟨_, step_of_keyWait s hrun hwait hdue, s.begun.poll_pc, fun k hk => ?_, fun hk => ?_⟩
    · rw [s.begun.poll_of_key hk, hx]
      exact ⟨State.reg_setReg_same _ x (keyByte k), rfl⟩
    · rw [s.begun.poll_of_noKey hk]
      exact ⟨fun r => rfl, hwait⟩

end Sys2Proof.Machine

/-! PROOFS. Rows of `FX07` and `FX18` (`spec/30_encoding.md` R78, R85): the key is the low byte. -/

namespace Sys2Proof

section

variable {w : Word}

theorem decodeFamilyF_ldVxDt (h : opNN w = Opcode.ldVxDt) : decodeFamilyF w = .ok (.ldVxDt (opX w)) := by
  simp [decodeFamilyF, h]

theorem decodeFamilyF_ldStVx (h : opNN w = Opcode.ldStVx) : decodeFamilyF w = .ok (.ldStVx (opX w)) := by
  simp [decodeFamilyF, h]

end

end Sys2Proof

/-! PROOFS. Timer instructions (`spec/46_timers.md` R175, R177): the read of DT is one register write, and the write of
ST pulses by its value. -/

namespace Sys2Proof.Machine

section

variable (s : State)

/-- Writing ST and emitting leave every other part as it was. -/
theorem soundTimerOutputs_frame (b : Byte) (os : List Output) :
    SameExcept [.soundTimer, .outputs] s ({ s with st := b }.emit os) := by
  intro p hp
  cases p with
  | soundTimer | outputs => exact absurd hp (by decide)
  | registers | memory => exact fun _ => rfl
  | faultRecord => exact ⟨rfl, rfl, rfl⟩
  | keyInput | randomInput => exact ⟨rfl, rfl⟩
  | index | pc | stackEntries | sp | delayTimer | screen | font | runState | cycleRate | keyWait | ir | agenda => rfl

/-- A nonzero value pulses `tone_start` once, whatever ST was (R177). -/
theorem exec_ldStVx_of_ne_zero (x : Reg) (h : s.reg x ≠ 0) :
    exec (.ldStVx x) s = .next ({ s with st := s.reg x }.emit [.toneStart]) := by
  show execLdStVx x s = _
  rw [execLdStVx, if_pos h]

/-- Zero pulses nothing (R177). -/
theorem exec_ldStVx_of_zero (x : Reg) (h : s.reg x = 0) :
    exec (.ldStVx x) s = .next ({ s with st := s.reg x }.emit []) := by
  show execLdStVx x s = _
  rw [execLdStVx, if_neg (not_not_intro h)]

end

/-- Settles O31: `FX07` is one register write; `FX18` is a write of ST with the pulse its value decides. -/
theorem timerInstructionResults : Obligations.TimerInstructionResults := by
  unfold Obligations.TimerInstructionResults
  refine ⟨fun w h => decodeWord_of_familyF_row rfl h decodeFamilyF_ldVxDt,
    fun w h => decodeWord_of_familyF_row rfl h decodeFamilyF_ldStVx, fun s x => ⟨?_, ?_⟩⟩
  · exact ⟨_, rfl, s.setReg_spec x rfl⟩
  · by_cases hx : s.reg x = 0
    · exact ⟨_, exec_ldStVx_of_zero s x hx, rfl, fun hne => absurd hx hne, fun _ => List.append_nil s.outputs,
        soundTimerOutputs_frame s _ _⟩
    · exact ⟨_, exec_ldStVx_of_ne_zero s x hx, rfl, fun _ => rfl, fun hzero => absurd hzero hx,
        soundTimerOutputs_frame s _ _⟩

end Sys2Proof.Machine

/-! PROOFS. Rows of `FX29`, `FX33`, `FX55` and `FX65` (`spec/30_encoding.md` R78, R85): the key is the low byte. -/

namespace Sys2Proof

section

variable {w : Word}

theorem decodeFamilyF_ldF (h : opNN w = Opcode.ldF) : decodeFamilyF w = .ok (.ldF (opX w)) := by
  simp [decodeFamilyF, h]

theorem decodeFamilyF_ldB (h : opNN w = Opcode.ldB) : decodeFamilyF w = .ok (.ldB (opX w)) := by
  simp [decodeFamilyF, h]

theorem decodeFamilyF_storeRegs (h : opNN w = Opcode.storeRegs) : decodeFamilyF w = .ok (.storeRegs (opX w)) := by
  simp [decodeFamilyF, h]

theorem decodeFamilyF_loadRegs (h : opNN w = Opcode.loadRegs) : decodeFamilyF w = .ok (.loadRegs (opX w)) := by
  simp [decodeFamilyF, h]

end

end Sys2Proof

/-! PROOFS. Memory and BCD instructions (`spec/47_memory_bcd.md` R185 to R189): the bounds check comes first; then the
instruction is one run of byte writes or of register writes. -/

namespace Sys2Proof.Machine

section

variable {s t : State}

/-! ### The bounds check -/

/-- A run whose last byte, at `a + n`, lies inside memory takes the guarded branch (R186 to R188). -/
theorem next_of_inBounds {a n : Nat} {u : State} (h : a + n ≤ 0xFFF) :
    (if inBounds a (n + 1) = true then .next t else .next u : Host.Outcome State Fault Refusal) = .next t :=
  if_pos ((inBounds_iff _ _).mpr (by omega))

theorem next_of_outOfBounds {a n : Nat} {u : State} (h : 0xFFF < a + n) :
    (if inBounds a (n + 1) = true then .next t else .next u : Host.Outcome State Fault Refusal) = .next u :=
  if_neg fun hin => absurd ((inBounds_iff _ _).mp hin) (by omega)

/-! ### Frames -/

/-- A state that differs in the cells of memory alone agrees in every other part. -/
theorem sameExcept_memory (h : { t with mem := s.mem } = s) : SameExcept [.memory] s t := by
  have e : t = { s with mem := t.mem } := congrArg (fun u : State => { u with mem := t.mem }) h
  rw [e]
  intro p hp
  cases p with
  | memory => exact absurd hp (by decide)
  | registers => exact fun _ => rfl
  | faultRecord => exact ⟨rfl, rfl, rfl⟩
  | keyInput | randomInput => exact ⟨rfl, rfl⟩
  | index | pc | stackEntries | sp | delayTimer | soundTimer | screen | font | runState | cycleRate | keyWait | ir
  | agenda | outputs => rfl

/-- A state that differs in the register file alone agrees in every other part. -/
theorem sameExcept_registers (h : { t with v := s.v } = s) : SameExcept [.registers] s t := by
  have e : t = { s with v := t.v } := congrArg (fun u : State => { u with v := t.v }) h
  rw [e]
  exact registers_frame s t.v

/-! ### Runs of writes -/

/-- A run of byte writes inside memory leaves each byte at its place and writes nothing else. -/
theorem State.writeBytes_spec (s : State) {a : Nat} {bytes : List Byte} (hwf : Memory.wf s.font s.mem = true)
    (hin : a + bytes.length ≤ Config.memSize) :
    (∀ k (h : k < bytes.length), (s.writeBytes a bytes).byteAt (a + k) = bytes[k]) ∧
      SameBytesOutside a bytes.length s (s.writeBytes a bytes) ∧ SameExcept [.memory] s (s.writeBytes a bytes) := by
  refine ⟨fun k hk => ?_, fun k hout => ?_, sameExcept_memory (State.writeBytes_frame bytes s a)⟩
  · rw [State.byteAt_writeBytes bytes s a _ hwf hin]
    simp [hk]
  · rw [State.byteAt_writeBytes bytes s a k hwf hin, dif_neg (by omega)]

/-- Loading V0 to VX from address `a` up: a register above VX keeps its byte (R188). -/
theorem State.reg_setRegsFrom_readBytes (s : State) (a : Nat) (x k : Reg) :
    (s.setRegsFrom 0 (s.readBytes a (x.toNat + 1))).reg k =
      if k.toNat ≤ x.toNat then s.byteAt (a + k.toNat) else s.reg k := by
  have hfit : 0 + (s.readBytes a (x.toNat + 1)).length ≤ 16 := by
    rw [State.length_readBytes]
    omega
  rw [State.reg_setRegsFrom k _ s 0 hfit]
  simp

/-! ### The values written -/

@[simp] theorem length_decimalDigits (b : Byte) : (decimalDigits b).length = 3 := rfl

/-- The mask keeps the low nibble, which is the remainder mod 16 (R185). -/
theorem toNat_glyphAddress (b : Byte) : (glyphAddress b).toNat = b.toNat % 16 * 5 % 256 := by
  have hlow : (b &&& 0x0F).toNat = b.toNat % 16 := Nat.and_two_pow_sub_one_eq_mod b.toNat 4
  rw [glyphAddress, hlow, BitVec.toNat_ofNat]
  omega

end

/-- Settles O36: in bounds the instruction is a run of three byte writes, the digits; else the fault entry. -/
theorem decimalDigitsResult : Obligations.DecimalDigitsResult := by
  unfold Obligations.DecimalDigitsResult
  refine ⟨fun w h => decodeWord_of_familyF_row rfl h decodeFamilyF_ldB, fun s x => ⟨fun hwf hin => ?_, fun hout => ?_⟩⟩
  · have hlen : s.i.toNat + (decimalDigits (s.reg x)).length ≤ Config.memSize := Nat.succ_le_succ hin
    obtain ⟨hbytes, houtside, hframe⟩ := s.writeBytes_spec hwf hlen
    exact ⟨_, next_of_inBounds hin, hbytes 0 (by simp), hbytes 1 (by simp), hbytes 2 (by simp), houtside, hframe⟩
  · exact ⟨_, next_of_outOfBounds hout, s.raiseIn_entry (.ldB x) .memoryBounds⟩

/-- Settles O37: in bounds the instruction is a run of X + 1 byte writes, V0 to VX; else the fault entry. -/
theorem storeRegistersResult : Obligations.StoreRegistersResult := by
  unfold Obligations.StoreRegistersResult
  refine ⟨fun w h => decodeWord_of_familyF_row rfl h decodeFamilyF_storeRegs,
    fun s x => ⟨fun hwf hin => ?_, fun hout => ?_⟩⟩
  · have hlen : s.i.toNat + (s.regsUpTo x).length ≤ Config.memSize := by
      rw [State.length_regsUpTo]
      exact Nat.succ_le_succ hin
    obtain ⟨hbytes, houtside, hframe⟩ := s.writeBytes_spec hwf hlen
    rw [State.length_regsUpTo] at houtside
    refine ⟨_, next_of_inBounds hin, fun k hk => ?_, houtside, hframe⟩
    rw [hbytes k.toNat (by simpa using Nat.lt_succ_of_le hk), State.getElem_regsUpTo, BitVec.ofNat_toNat,
      BitVec.setWidth_eq]
  · exact ⟨_, next_of_outOfBounds hout, s.raiseIn_entry (.storeRegs x) .memoryBounds⟩

/-- Settles O38: in bounds the instruction is a run of X + 1 register writes from V0 up; else the fault entry. -/
theorem loadRegistersResult : Obligations.LoadRegistersResult := by
  unfold Obligations.LoadRegistersResult
  refine ⟨fun w h => decodeWord_of_familyF_row rfl h decodeFamilyF_loadRegs, fun s x => ⟨fun hin => ?_, fun hout => ?_⟩⟩
  · exact ⟨_, next_of_inBounds hin, s.reg_setRegsFrom_readBytes s.i.toNat x,
      sameExcept_registers (State.setRegsFrom_frame _ s 0)⟩
  · exact ⟨_, next_of_outOfBounds hout, s.raiseIn_entry (.loadRegs x) .memoryBounds⟩

/-- Settles O35: the instruction is one write of I, of an address that depends on the register alone. -/
theorem glyphAddressResult : Obligations.GlyphAddressResult := by
  unfold Obligations.GlyphAddressResult
  exact ⟨fun w h => decodeWord_of_familyF_row rfl h decodeFamilyF_ldF,
    fun s x => ⟨_, rfl, toNat_glyphAddress (s.reg x), s.setIndex_frame _⟩⟩

end Sys2Proof.Machine

/-! PROOFS. Outputs and timer ticks (`spec/60_exceptions.md` R205, R220, R234): the tone pulses each event can emit,
what a tick leaves, and the reset that is refused. -/

namespace Sys2Proof.Machine

section

variable {s t u : State}

/-! ### Frames -/

/-- Taking the due event off the agenda leaves every other part as it was. -/
theorem State.begun_frame (s : State) : SameExcept [.agenda] s s.begun := by
  intro p hp
  cases p with
  | agenda => exact absurd hp (by decide)
  | registers | memory => exact fun _ => rfl
  | faultRecord => exact ⟨rfl, rfl, rfl⟩
  | keyInput | randomInput => exact ⟨rfl, rfl⟩
  | index | pc | stackEntries | sp | delayTimer | soundTimer | screen | font | runState | cycleRate | keyWait | ir
  | outputs => rfl

theorem State.emit_frame (s : State) (os : List Output) : SameExcept [.outputs] s (s.emit os) :=
  (soundTimerOutputs_frame s s.st os).drop rfl

/-- Writing DT leaves every other part as it was. -/
theorem delayTimer_frame (s : State) (b : Byte) : SameExcept [.delayTimer] s { s with dt := b } := by
  intro p hp
  cases p with
  | delayTimer => exact absurd hp (by decide)
  | registers | memory => exact fun _ => rfl
  | faultRecord => exact ⟨rfl, rfl, rfl⟩
  | keyInput | randomInput => exact ⟨rfl, rfl⟩
  | index | pc | stackEntries | sp | soundTimer | screen | font | runState | cycleRate | keyWait | ir | agenda
  | outputs => rfl

/-! ### The tick -/

/-- Truncated subtraction of numbers stops at 0 as the timer does (R220). -/
@[simp] theorem toNat_countDown (b : Byte) : (countDown b).toNat = b.toNat - 1 := by
  unfold countDown
  split
  · simp [*]
  · bv_omega

/-- A tick writes the two timers and the outputs: ST with its pulse, then DT. -/
theorem State.tick_frame (s : State) : SameExcept [.delayTimer, .soundTimer, .outputs] s s.tick :=
  (soundTimerOutputs_frame s (countDown s.st) _).trans_append (delayTimer_frame _ (countDown s.dt))

theorem State.tick_outputs_of_one (h : s.st = 1) : s.tick.outputs = s.outputs ++ [.toneStop] := by
  rw [State.tick_outputs, if_pos h]

theorem State.tick_outputs_of_ne_one (h : s.st ≠ 1) : s.tick.outputs = s.outputs := by
  rw [State.tick_outputs, if_neg h, List.append_nil]

theorem State.tickIfRunning_of_running (h : s.runState = .running) : s.tickIfRunning = s.tick := if_pos h

theorem step_of_due_tick (hrun : s.runState = .running) (hdue : s.due = .tick) : step s = .next s.begun.tick := by
  have hrun' : s.begun.runState = .running := hrun
  rw [step, hdue, perform, State.tickIfRunning_of_running hrun']

/-! ### The tone pulses between two states -/

/-- From `s` to `t` the outputs only grow, a new `tone_stop` implies `stop` and a new `tone_start` implies `start`. -/
def PulsesOnly (stop start : Prop) (s t : State) : Prop :=
  ∃ new, t.outputs = s.outputs ++ new ∧ (Output.toneStop ∈ new → stop) ∧ (Output.toneStart ∈ new → start)

section

variable {stop start stop' start' : Prop}

theorem PulsesOnly.mono (h : PulsesOnly stop start s t) (hstop : stop → stop') (hstart : start → start') :
    PulsesOnly stop' start' s t := by
  obtain ⟨new, hnew, h1, h2⟩ := h
  exact ⟨new, hnew, hstop ∘ h1, hstart ∘ h2⟩

theorem PulsesOnly.trans (h : PulsesOnly stop start s t) (h' : PulsesOnly stop start t u) :
    PulsesOnly stop start s u := by
  obtain ⟨new, hnew, h1, h2⟩ := h
  obtain ⟨new', hnew', h1', h2'⟩ := h'
  refine ⟨new ++ new', by rw [hnew', hnew, List.append_assoc], fun hm => ?_, fun hm => ?_⟩
  · exact (List.mem_append.mp hm).elim h1 h1'
  · exact (List.mem_append.mp hm).elim h2 h2'

/-- A change that emits nothing. -/
theorem PulsesOnly.of_outputs_eq (h : t.outputs = s.outputs) : PulsesOnly stop start s t :=
  ⟨[], by rw [h, List.append_nil], fun hm => absurd hm List.not_mem_nil, fun hm => absurd hm List.not_mem_nil⟩

/-- A change whose one output is no tone pulse. -/
theorem PulsesOnly.of_other {o : Output} (h : t.outputs = s.outputs ++ [o]) (hstop : o ≠ .toneStop)
    (hstart : o ≠ .toneStart) : PulsesOnly stop start s t :=
  ⟨[o], h, fun hm => absurd (List.mem_singleton.mp hm).symm hstop,
    fun hm => absurd (List.mem_singleton.mp hm).symm hstart⟩

/-- The diagnostic of a fault is no tone pulse (R234). -/
theorem State.raiseIn_pulses (s : State) (i : Instr) (k : FaultKind) : PulsesOnly stop start s (s.raiseIn i k) :=
  .of_other (s.raiseIn_outputs i k) nofun nofun

theorem State.writeBytes_outputs (s : State) (a : Nat) (bytes : List Byte) :
    (s.writeBytes a bytes).outputs = s.outputs :=
  (congrArg State.outputs (State.writeBytes_frame bytes s a) :)

theorem State.setRegsFrom_outputs (s : State) (k : Nat) (bytes : List Byte) :
    (s.setRegsFrom k bytes).outputs = s.outputs :=
  (congrArg State.outputs (State.setRegsFrom_frame bytes s k) :)

theorem State.poll_outputs (s : State) : s.poll.outputs = s.outputs := by
  rcases s.poll_cases with ⟨k, -, e⟩ | ⟨-, e⟩
  · rw [e]; rfl
  · rw [e]; rfl

/-- The cells read inside a step are no tone pulses. -/
theorem emit_tornOutputs_pulses (s t : State) (reads : List TornRead) :
    PulsesOnly stop start t (t.emit (tornOutputs s t reads)) :=
  ⟨_, rfl, by simp [tornOutputs], by simp [tornOutputs]⟩

/-- No command pulses: reset and load-state emit at most a diagnostic, save-state emits the snapshot (R234). -/
theorem State.command_pulses (s : State) (c : Command) : PulsesOnly stop start s (s.command c) := by
  cases c with
  | reset rom =>
    show PulsesOnly stop start s (s.resetCommand rom)
    rcases Nat.lt_or_ge 3584 rom.length with h | h
    · rw [s.resetCommand_of_gt rom h]
      exact .of_other rfl nofun nofun
    · rw [s.resetCommand_of_le rom h]
      exact .of_outputs_eq rfl
  | pause | unpause => exact .of_outputs_eq rfl
  | stop =>
    show PulsesOnly _ _ s s.stop
    unfold State.stop
    split
    · exact .of_outputs_eq rfl
    · exact .of_outputs_eq rfl
  | saveState => exact .of_other rfl nofun nofun
  | loadState f =>
    show PulsesOnly stop start s (s.loadCommand f)
    unfold State.loadCommand
    split
    · exact .of_outputs_eq rfl
    · exact .of_other rfl nofun nofun

end

/-! ### The pulses of instructions, cycles and events -/

/-- Of all instructions only `FX18` pulses: `tone_start`, where VX is not 0 (R177, R234). -/
theorem exec_pulses {i : Instr} (h : exec i s = .next t) :
    PulsesOnly False (∃ x, i = .ldStVx x ∧ s.reg x ≠ 0) s t := by
  cases i with
  | ldStVx x =>
    by_cases hx : s.reg x = 0
    · obtain rfl := Host.Outcome.next.inj ((exec_ldStVx_of_zero s x hx).symm.trans h)
      exact .of_outputs_eq (List.append_nil _)
    · obtain rfl := Host.Outcome.next.inj ((exec_ldStVx_of_ne_zero s x hx).symm.trans h)
      exact ⟨_, rfl, by simp, fun _ => ⟨x, rfl, hx⟩⟩
  | call nnn =>
    have hsp := s.sp.isLt
    rcases Nat.lt_or_ge s.sp.val 16 with hroom | hfull
    · obtain rfl := Host.Outcome.next.inj ((exec_call_of_room s nnn hroom).symm.trans h)
      exact .of_outputs_eq rfl
    · obtain rfl := Host.Outcome.next.inj ((exec_call_of_full s nnn (by omega)).symm.trans h)
      exact s.raiseIn_pulses _ _
  | ret g =>
    rcases Nat.eq_zero_or_pos s.sp.val with hempty | hpos
    · obtain rfl := Host.Outcome.next.inj ((exec_ret_of_empty s g hempty).symm.trans h)
      exact s.raiseIn_pulses _ _
    · obtain rfl := Host.Outcome.next.inj ((exec_ret_of_pos s g hpos).symm.trans h)
      exact .of_outputs_eq rfl
  | drw x y n =>
    rcases next_ite_cases h with ⟨-, rfl⟩ | ⟨-, rfl⟩
    · exact .of_outputs_eq rfl
    · exact s.raiseIn_pulses _ _
  | ldVxK x =>
    rcases execLdVxK_cases h with ⟨k, -, rfl⟩ | ⟨-, rfl⟩
    · exact .of_outputs_eq rfl
    · exact .of_outputs_eq rfl
  | ldB x | storeRegs x =>
    rcases next_ite_cases h with ⟨-, rfl⟩ | ⟨-, rfl⟩
    · exact .of_outputs_eq (State.writeBytes_outputs _ _ _)
    · exact s.raiseIn_pulses _ _
  | loadRegs x =>
    rcases next_ite_cases h with ⟨-, rfl⟩ | ⟨-, rfl⟩
    · exact .of_outputs_eq (State.setRegsFrom_outputs _ _ _)
    · exact s.raiseIn_pulses _ _
  | _ =>
    obtain rfl := Host.Outcome.next.inj h
    exact .of_outputs_eq rfl

/-- The word at PC is an `FX18` whose register is not 0. -/
def State.startsTone (s : State) : Prop :=
  ∃ op x, s.fetchWord = some op ∧ decodeWord op = .ok (.ldStVx x) ∧ s.reg x ≠ 0

theorem cycle_pulses (h : cycle s = .next t) : PulsesOnly False s.startsTone s t := by
  rcases cycle_cases h with ⟨-, rfl⟩ | ⟨op, i, hf, hd, he⟩ | ⟨op, -, -, rfl⟩
  · exact .of_other rfl nofun nofun
  · refine (exec_pulses he).mono id ?_
    rintro ⟨x, rfl, hx⟩
    exact ⟨op, x, hf, hd, hx⟩
  · exact .of_other rfl nofun nofun

theorem instructionStep_pulses (h : instructionStep s = .next t) :
    PulsesOnly False (s.runState = .running ∧ s.waitKey = false ∧ s.startsTone) s t := by
  rcases instructionStep_cases h with ⟨-, rfl⟩ | ⟨-, -, rfl⟩ | ⟨hrun, hwait, hc⟩
  · exact .of_outputs_eq rfl
  · exact .of_outputs_eq s.poll_outputs
  · exact (cycle_pulses hc).mono id fun hs => ⟨hrun, hwait, hs⟩

/-- `tone_stop` comes only from a tick of a Running machine with ST at 1 (R220). -/
theorem State.tickIfRunning_pulses (s : State) :
    PulsesOnly (s.runState = .running ∧ s.st = 1) False s s.tickIfRunning := by
  unfold State.tickIfRunning
  split
  · by_cases hst : s.st = 1
    · exact ⟨_, State.tick_outputs_of_one hst, fun _ => ⟨‹_›, hst⟩, by simp⟩
    · exact .of_outputs_eq (State.tick_outputs_of_ne_one hst)
  · exact .of_outputs_eq rfl

/-- The tone pulses of an event: `tone_stop` from a tick, `tone_start` from an instruction step (R234). -/
theorem perform_pulses {e : Event} (h : perform s e = .next t) :
    PulsesOnly (e = .tick ∧ s.runState = .running ∧ s.st = 1)
      ((e = .step ∨ ∃ reads, e = .tornStep reads) ∧ s.runState = .running ∧ s.waitKey = false ∧ s.startsTone) s t := by
  rcases perform_cases h with
    ⟨he, hi⟩ | ⟨reads, u, he, hi, rfl⟩ | ⟨he, rfl⟩ | ⟨c, -, rfl⟩ | ⟨rate, -, rfl⟩ | ⟨p, -, rfl⟩
  · exact (instructionStep_pulses hi).mono False.elim fun hs => ⟨Or.inl he, hs⟩
  · exact ((instructionStep_pulses hi).mono False.elim fun hs => ⟨Or.inr ⟨reads, he⟩, hs⟩).trans
      (emit_tornOutputs_pulses s u reads)
  · exact s.tickIfRunning_pulses.mono (fun hs => ⟨he, hs⟩) False.elim
  · exact s.command_pulses c
  · exact .of_outputs_eq rfl
  · exact .of_other rfl nofun nofun

/-! ### The refused reset -/

theorem step_of_due_oversizedRom {rom : List Byte} (hdue : s.due = .command (.reset rom)) (h : 3584 < rom.length) :
    step s = .next (s.begun.emit [.diag .oversizedRom (saturate16 rom.length) 0]) := by
  rw [step, hdue, perform, State.command, State.resetCommand_of_gt _ rom h]

end

/-- Settles O33: a due tick of a Running machine is `State.tick`, and of all events only a tick can pulse
`tone_stop`. -/
theorem tickResult : Obligations.TickResult := by
  unfold Obligations.TickResult
  constructor
  · intro s hrun hdue
    exact ⟨_, step_of_due_tick hrun hdue, toNat_countDown s.dt, toNat_countDown s.st,
      State.tick_outputs_of_one (s := s.begun), State.tick_outputs_of_ne_one (s := s.begun), rfl,
      s.begun_frame.trans_append s.begun.tick_frame⟩
  · intro s t hdue h
    have hp : perform s.begun s.due = .next t := h
    obtain ⟨new, hnew, hstop, -⟩ := perform_pulses hp
    exact ⟨new, hnew, fun hm => hdue (hstop hm).1⟩

/-- Settles O51: the length check comes first, so the command is one diagnostic and nothing else. -/
theorem oversizedRomIsRejected : Obligations.OversizedRomIsRejected := by
  unfold Obligations.OversizedRomIsRejected
  intro s rom hdue hlen
  exact ⟨_, step_of_due_oversizedRom hdue hlen, rfl, rfl, s.begun_frame.trans_append (s.begun.emit_frame _)⟩

end Sys2Proof.Machine

/-! PROOFS. The accepted reset (`spec/70_reset_and_hazards.md` R261): what memory reads as after it, and its frame. -/

namespace Sys2Proof.Machine

section

variable (s : State) {rom : List Byte}

/-! ### Memory after the reset -/

/-- Unlisted memory holds the font row by row, five bytes to a glyph (R36). -/
theorem Memory.unlisted_glyph (font : Font) {g r : Nat} (hg : g < 16) (hr : r < 5) :
    Memory.unlisted font (5 * g + r) = font[g][r] := by
  have hdiv : (5 * g + r) / 5 = g := by omega
  have hmod : (5 * g + r) % 5 = r := by omega
  rw [Memory.unlisted, dif_pos (by omega)]
  simp only [hdiv, hmod]

/-- After a reset memory is the image of the ROM over the reset contents. -/
theorem State.byteAt_reinitialised (a : Nat) :
    (s.reinitialised rom).byteAt a =
      if h : 0x200 ≤ a ∧ a - 0x200 < rom.length then rom[a - 0x200] else Memory.unlisted s.font a :=
  Memory.read_image s.font rom 0x200 a

theorem State.byteAt_reinitialised_rom {j : Nat} (h : j < rom.length) :
    (s.reinitialised rom).byteAt (0x200 + j) = rom[j] := by
  rw [s.byteAt_reinitialised, dif_pos (by omega)]
  simp only [Nat.add_sub_cancel_left]

theorem State.byteAt_reinitialised_outside {a : Nat} (h : a < 0x200 ∨ 0x200 + rom.length ≤ a) :
    (s.reinitialised rom).byteAt a = Memory.unlisted s.font a := by
  rw [s.byteAt_reinitialised, dif_neg (by omega)]

/-! ### The other fields -/

theorem State.reg_reinitialised (r : Reg) : (s.reinitialised rom).reg r = 0 := by
  simp only [State.reg, s.reinitialised_v, Vector.getElem_replicate]

/-- The parts a reset writes; CYCLE_RATE, the font table, the inputs and the outputs are not among them (R261, R265). -/
theorem State.reinitialised_frame (rom : List Byte) :
    SameExcept [.registers, .index, .pc, .stackEntries, .sp, .delayTimer, .soundTimer, .screen, .memory, .runState,
      .faultRecord, .keyWait, .ir] s (s.reinitialised rom) := by
  intro p hp
  cases p with
  | registers | index | pc | stackEntries | sp | delayTimer | soundTimer | screen | memory | runState | faultRecord
  | keyWait | ir => exact absurd hp (by decide)
  | font | cycleRate | agenda | outputs => rfl
  | keyInput | randomInput => exact ⟨rfl, rfl⟩

theorem step_of_due_acceptedRom {s : State} (hdue : s.due = .command (.reset rom)) (h : rom.length ≤ 3584) :
    step s = .next (s.begun.reinitialised rom) := by
  rw [step, hdue, perform, State.command, State.resetCommand_of_le _ rom h]

end

/-- Settles O50: the step is `State.reinitialised`, and the font, the ROM and the zeros are the three parts of what the
memory image reads as. -/
theorem resetReinitialisesEverything : Obligations.ResetReinitialisesEverything := by
  unfold Obligations.ResetReinitialisesEverything
  intro s rom hdue hlen
  have hstack : ∀ k (h : k < 16), (s.begun.reinitialised rom).stack[k] = 0 := fun k h => by
    simp only [State.reinitialised_stack, Vector.getElem_replicate]
  have hfont : ∀ g (h : g < 16) r (h' : r < 5),
      (s.begun.reinitialised rom).byteAt (5 * g + r) = s.font[g][r] := fun g h r h' => by
    rw [State.byteAt_reinitialised_outside _ (by omega), Memory.unlisted_glyph _ h h']
    rfl
  have hzero : ∀ a, 80 ≤ a → a < 0x200 ∨ 0x200 + rom.length ≤ a →
      (s.begun.reinitialised rom).byteAt a = 0 := fun a ha hout => by
    rw [State.byteAt_reinitialised_outside _ hout, Memory.unlisted_of_ge _ ha]
  exact ⟨_, step_of_due_acceptedRom hdue hlen, s.begun.reg_reinitialised, rfl, rfl, hstack, rfl, rfl, rfl,
    Framebuffer.lit_dark, hfont, fun _ => s.begun.byteAt_reinitialised_rom, hzero, rfl, rfl, rfl, rfl, rfl, rfl, rfl,
    s.begun_frame.trans_append (s.begun.reinitialised_frame rom)⟩

end Sys2Proof.Machine

/-! PROOFS. The decoder and the encoder (`spec/30_encoding.md` R73 to R86): one reads back what the other writes, the
rows of the opcode table, and the words that are rejected. -/

namespace Sys2Proof

section

variable {w k : Word} {i : Instr}

/-! ### Rows that no earlier part reads -/

theorem decodeFamily0_cls (h : opNN w = Opcode.cls) : decodeFamily0 w = .ok (.cls (opX w)) := by
  simp [decodeFamily0, h]

theorem decodeFamilyF_ldDtVx (h : opNN w = Opcode.ldDtVx) : decodeFamilyF w = .ok (.ldDtVx (opX w)) := by
  simp [decodeFamilyF, h]

/-- A word of a row of the family 0x0 decodes as the row's key says. -/
theorem decodeWord_of_family0_row (hk : opTop k = Opcode.family0) (h : w &&& 0xF0FF#16 = k)
    (hkey : opNN w = opNN k → decodeFamily0 w = .ok i) : decodeWord w = .ok i :=
  (decodeWord_family0 ((opTop_of_masked rfl h).trans hk)).trans (hkey (opNN_of_masked rfl h))

/-! ### From the instruction to the word and back -/

/-- The decoder finds the high nibble, then the key, then the operands where the encoder has put them. -/
theorem decodeWord_encode (i : Instr) : decodeWord (encode i) = .ok i := by
  cases i with
  | cls g | ret g => simp [encode, decodeWord_family0, decodeFamily0]
  | jp nnn => simp [encode, decodeWord_jp]
  | call nnn => simp [encode, decodeWord_call]
  | seImm x nn => simp [encode, decodeWord_seImm]
  | sneImm x nn => simp [encode, decodeWord_sneImm]
  | seReg x y g => simp [encode, decodeWord_seReg]
  | ldImm x nn => simp [encode, decodeWord_ldImm]
  | addImm x nn => simp [encode, decodeWord_addImm]
  | ldReg x y | orReg x y | andReg x y | xorReg x y | addReg x y | subReg x y | shr x y | subnReg x y | shl x y =>
    simp [encode, decodeWord_family8, decodeFamily8]
  | sneReg x y g => simp [encode, decodeWord_sneReg]
  | ldI nnn => simp [encode, decodeWord_ldI]
  | jpV0 nnn => simp [encode, decodeWord_jpV0]
  | rnd x nn => simp [encode, decodeWord_rnd]
  | drw x y n => simp [encode, decodeWord_drw]
  | skp x | sknp x => simp [encode, decodeWord_familyE, decodeFamilyE]
  | ldVxDt x | ldVxK x | ldDtVx x | ldStVx x | addI x | ldF x | ldB x | storeRegs x | loadRegs x =>
    simp [encode, decodeWord_familyF, decodeFamilyF]

/-! ### From the word to the instruction and back -/

section

variable {top n : Nibble} {nn : Byte}

theorem packNNN_of_top (h : opTop w = top) : packNNN top (opNNN w) = w := h ▸ packNNN_fields w

theorem packXNN_of_top (h : opTop w = top) : packXNN top (opX w) (opNN w) = w := h ▸ packXNN_fields w

theorem packXYN_of_top (h : opTop w = top) : packXYN top (opX w) (opY w) (opN w) = w := h ▸ packXYN_fields w

/-- In the families 0x0, 0xE and 0xF the low byte is the key. -/
theorem packXNN_of_key (h : opTop w = top) (hkey : opNN w = nn) : packXNN top (opX w) nn = w :=
  hkey ▸ packXNN_of_top h

/-- In the family 0x8 the low nibble is the key. -/
theorem packXYN_of_key (h : opTop w = top) (hkey : opN w = n) : packXYN top (opX w) (opY w) n = w :=
  hkey ▸ packXYN_of_top h

end

theorem encode_of_decodeFamily0 (ht : opTop w = Opcode.family0) (h : decodeFamily0 w = .ok i) : encode i = w := by
  unfold decodeFamily0 at h
  split_ifs at h <;> cases h
  all_goals exact packXNN_of_key ht ‹_›

theorem encode_of_decodeFamily8 (ht : opTop w = Opcode.family8) (h : decodeFamily8 w = .ok i) : encode i = w := by
  unfold decodeFamily8 at h
  split_ifs at h <;> cases h
  all_goals exact packXYN_of_key ht ‹_›

theorem encode_of_decodeFamilyE (ht : opTop w = Opcode.familyE) (h : decodeFamilyE w = .ok i) : encode i = w := by
  unfold decodeFamilyE at h
  split_ifs at h <;> cases h
  all_goals exact packXNN_of_key ht ‹_›

theorem encode_of_decodeFamilyF (ht : opTop w = Opcode.familyF) (h : decodeFamilyF w = .ok i) : encode i = w := by
  unfold decodeFamilyF at h
  split_ifs at h <;> cases h
  all_goals exact packXNN_of_key ht ‹_›

/-- A word that decodes is the word of its instruction: the fields and the keys are all of its bits. -/
theorem encode_of_decodeWord (h : decodeWord w = .ok i) : encode i = w := by
  rcases nibble_cases (opTop w) with ht | ht | ht | ht | ht | ht | ht | ht | ht | ht | ht | ht | ht | ht | ht | ht
  · exact encode_of_decodeFamily0 ht ((decodeWord_family0 ht).symm.trans h)
  · obtain rfl := Except.ok.inj ((decodeWord_jp ht).symm.trans h)
    exact packNNN_of_top ht
  · obtain rfl := Except.ok.inj ((decodeWord_call ht).symm.trans h)
    exact packNNN_of_top ht
  · obtain rfl := Except.ok.inj ((decodeWord_seImm ht).symm.trans h)
    exact packXNN_of_top ht
  · obtain rfl := Except.ok.inj ((decodeWord_sneImm ht).symm.trans h)
    exact packXNN_of_top ht
  · obtain rfl := Except.ok.inj ((decodeWord_seReg ht).symm.trans h)
    exact packXYN_of_top ht
  · obtain rfl := Except.ok.inj ((decodeWord_ldImm ht).symm.trans h)
    exact packXNN_of_top ht
  · obtain rfl := Except.ok.inj ((decodeWord_addImm ht).symm.trans h)
    exact packXNN_of_top ht
  · exact encode_of_decodeFamily8 ht ((decodeWord_family8 ht).symm.trans h)
  · obtain rfl := Except.ok.inj ((decodeWord_sneReg ht).symm.trans h)
    exact packXYN_of_top ht
  · obtain rfl := Except.ok.inj ((decodeWord_ldI ht).symm.trans h)
    exact packNNN_of_top ht
  · obtain rfl := Except.ok.inj ((decodeWord_jpV0 ht).symm.trans h)
    exact packNNN_of_top ht
  · obtain rfl := Except.ok.inj ((decodeWord_rnd ht).symm.trans h)
    exact packXNN_of_top ht
  · obtain rfl := Except.ok.inj ((decodeWord_drw ht).symm.trans h)
    exact packXYN_of_top ht
  · exact encode_of_decodeFamilyE ht ((decodeWord_familyE ht).symm.trans h)
  · exact encode_of_decodeFamilyF ht ((decodeWord_familyF ht).symm.trans h)

/-! ### The words that are rejected (R80) -/

theorem decodeFamily0_rejects_iff : decodeFamily0 w = .error (.unimplemented w) ↔ opNN w ∉ [0xE0#8, 0xEE#8] := by
  simp only [decodeFamily0, Opcode.cls, Opcode.ret]
  split_ifs <;> simp_all

/-- The keys of the family 0x8 are the nibbles that R80 does not list. -/
theorem decodeFamily8_rejects_iff : decodeFamily8 w = .error (.unimplemented w) ↔
    opN w ∈ [0x8#4, 0x9#4, 0xA#4, 0xB#4, 0xC#4, 0xD#4, 0xF#4] := by
  rcases nibble_cases (opN w) with h | h | h | h | h | h | h | h | h | h | h | h | h | h | h | h <;>
    simp [decodeFamily8, h]

theorem decodeFamilyE_rejects_iff : decodeFamilyE w = .error (.unimplemented w) ↔ opNN w ∉ [0x9E#8, 0xA1#8] := by
  simp only [decodeFamilyE, Opcode.skp, Opcode.sknp]
  split_ifs <;> simp_all

theorem decodeFamilyF_rejects_iff : decodeFamilyF w = .error (.unimplemented w) ↔
    opNN w ∉ [0x07#8, 0x0A#8, 0x15#8, 0x18#8, 0x1E#8, 0x29#8, 0x33#8, 0x55#8, 0x65#8] := by
  simp only [decodeFamilyF, Opcode.ldVxDt, Opcode.ldVxK, Opcode.ldDtVx, Opcode.ldStVx, Opcode.addI, Opcode.ldF,
    Opcode.ldB, Opcode.storeRegs, Opcode.loadRegs]
  split_ifs <;> simp_all

/-- Clause by clause R80 lists the keys that the family's decoder does not know; no other family rejects a word. -/
theorem inUnimplementedSpace_iff : Machine.inUnimplementedSpace w ↔ decodeWord w = .error (.unimplemented w) := by
  show ((opTop w = 0x0#4 ∧ opNN w ∉ [0xE0#8, 0xEE#8]) ∨
    (opTop w = 0x8#4 ∧ opN w ∈ [0x8#4, 0x9#4, 0xA#4, 0xB#4, 0xC#4, 0xD#4, 0xF#4]) ∨
    (opTop w = 0xE#4 ∧ opNN w ∉ [0x9E#8, 0xA1#8]) ∨
    (opTop w = 0xF#4 ∧ opNN w ∉ [0x07#8, 0x0A#8, 0x15#8, 0x18#8, 0x1E#8, 0x29#8, 0x33#8, 0x55#8, 0x65#8])) ↔ _
  rw [← decodeFamily0_rejects_iff, ← decodeFamily8_rejects_iff, ← decodeFamilyE_rejects_iff,
    ← decodeFamilyF_rejects_iff]
  rcases nibble_cases (opTop w) with h | h | h | h | h | h | h | h | h | h | h | h | h | h | h | h <;>
    simp [decodeWord, h]

end

/-- Settles O1: the bytes make the encoded word, from which the decoder reads the instruction. -/
theorem decodeOfEncodeIsIdentity : Obligations.DecodeOfEncodeIsIdentity := by
  unfold Obligations.DecodeOfEncodeIsIdentity
  intro i rest
  rw [encodeBytes, decode_bytesOfWord, decodeWord_encode]
  rfl

/-- Settles O2: the fields and the keys of an instruction are all the bits of its word. -/
theorem encodeOfDecodeIsIdentity : Obligations.EncodeOfDecodeIsIdentity := by
  unfold Obligations.EncodeOfDecodeIsIdentity
  exact fun _ _ => encode_of_decodeWord

/-- Settles O3: a row's mask keeps the top nibble and, in a family, the key, and these two decide. -/
theorem decoderFollowsOpcodeTable : Obligations.DecoderFollowsOpcodeTable := by
  unfold Obligations.DecoderFollowsOpcodeTable
  exact fun w => ⟨fun h => decodeWord_of_family0_row rfl h decodeFamily0_cls,
    fun h => decodeWord_of_family0_row rfl h decodeFamily0_ret,
    fun h => decodeWord_jp (opTop_of_masked rfl h), fun h => decodeWord_call (opTop_of_masked rfl h),
    fun h => decodeWord_seImm (opTop_of_masked rfl h), fun h => decodeWord_sneImm (opTop_of_masked rfl h),
    fun h => decodeWord_seReg (opTop_of_masked rfl h), fun h => decodeWord_ldImm (opTop_of_masked rfl h),
    fun h => decodeWord_addImm (opTop_of_masked rfl h),
    fun h => decodeWord_of_family8_row rfl h decodeFamily8_ldReg,
    fun h => decodeWord_of_family8_row rfl h decodeFamily8_orReg,
    fun h => decodeWord_of_family8_row rfl h decodeFamily8_andReg,
    fun h => decodeWord_of_family8_row rfl h decodeFamily8_xorReg,
    fun h => decodeWord_of_family8_row rfl h decodeFamily8_addReg,
    fun h => decodeWord_of_family8_row rfl h decodeFamily8_subReg,
    fun h => decodeWord_of_family8_row rfl h decodeFamily8_shr,
    fun h => decodeWord_of_family8_row rfl h decodeFamily8_subnReg,
    fun h => decodeWord_of_family8_row rfl h decodeFamily8_shl,
    fun h => decodeWord_sneReg (opTop_of_masked rfl h), fun h => decodeWord_ldI (opTop_of_masked rfl h),
    fun h => decodeWord_jpV0 (opTop_of_masked rfl h), fun h => decodeWord_rnd (opTop_of_masked rfl h),
    fun h => decodeWord_drw (opTop_of_masked rfl h),
    fun h => decodeWord_of_familyE_row rfl h decodeFamilyE_skp,
    fun h => decodeWord_of_familyE_row rfl h decodeFamilyE_sknp,
    fun h => decodeWord_of_familyF_row rfl h decodeFamilyF_ldVxDt,
    fun h => decodeWord_of_familyF_row rfl h decodeFamilyF_ldVxK,
    fun h => decodeWord_of_familyF_row rfl h decodeFamilyF_ldDtVx,
    fun h => decodeWord_of_familyF_row rfl h decodeFamilyF_ldStVx,
    fun h => decodeWord_of_familyF_row rfl h decodeFamilyF_addI,
    fun h => decodeWord_of_familyF_row rfl h decodeFamilyF_ldF,
    fun h => decodeWord_of_familyF_row rfl h decodeFamilyF_ldB,
    fun h => decodeWord_of_familyF_row rfl h decodeFamilyF_storeRegs,
    fun h => decodeWord_of_familyF_row rfl h decodeFamilyF_loadRegs⟩

/-- Settles O4: the space is what the family decoders reject, and the decoder answers an instruction for every other
word. -/
theorem unimplementedSpaceIsTheComplement : Obligations.UnimplementedSpaceIsTheComplement := by
  unfold Obligations.UnimplementedSpaceIsTheComplement
  intro w
  refine ⟨inUnimplementedSpace_iff, ?_⟩
  rw [inUnimplementedSpace_iff]
  constructor
  · exact (decodeWord_total w).resolve_right
  · rintro ⟨i, hi⟩ he
    exact nomatch hi.symm.trans he

end Sys2Proof

/-! PROOFS. What an instruction can write (`spec/10_state.md` R41, R42; `spec/60_exceptions.md` R206): the parts of the
state it names, or its one fault. -/

namespace Sys2Proof.Machine

section

variable {s t : State} {i : Instr}

/-! ### Frames -/

/-- Writing the framebuffer leaves every other part as it was. -/
theorem screen_frame (s : State) (fb : Framebuffer) : SameExcept [.screen] s { s with fb := fb } := by
  intro p hp
  cases p with
  | screen => exact absurd hp (by decide)
  | registers | memory => exact fun _ => rfl
  | faultRecord => exact ⟨rfl, rfl, rfl⟩
  | keyInput | randomInput => exact ⟨rfl, rfl⟩
  | index | pc | stackEntries | sp | delayTimer | soundTimer | font | runState | cycleRate | keyWait | ir | agenda
  | outputs => rfl

/-- Taking a random byte writes the random input alone (R150). -/
theorem State.randomTaken_frame (s : State) : SameExcept [.randomInput] s s.randomTaken := by
  intro p hp
  cases p with
  | randomInput => exact absurd hp (by decide)
  | registers | memory => exact fun _ => rfl
  | faultRecord => exact ⟨rfl, rfl, rfl⟩
  | keyInput => exact ⟨rfl, rfl⟩
  | index | pc | stackEntries | sp | delayTimer | soundTimer | screen | font | runState | cycleRate | keyWait | ir
  | agenda | outputs => rfl

theorem State.setReg_frame (s : State) (x : Reg) (b : Byte) : SameExcept [.registers] s (s.setReg x b) :=
  registers_frame s _

/-! ### Calls and returns -/

theorem exec_call_cases {nnn : Addr} (h : exec (.call nnn) s = .next t) :
    (∃ hroom : s.sp.val < 16, t = { s with
      stack := s.stack.set s.sp.val s.pc hroom, sp := ⟨s.sp.val + 1, by omega⟩, pc := jumpTarget nnn }) ∨
      t = s.raiseIn (.call nnn) .stackOverflow := by
  have hsp := s.sp.isLt
  rcases Nat.lt_or_ge s.sp.val 16 with hroom | hfull
  · exact Or.inl ⟨hroom, Host.Outcome.next.inj (h.symm.trans (exec_call_of_room s nnn hroom))⟩
  · exact Or.inr (Host.Outcome.next.inj (h.symm.trans (exec_call_of_full s nnn (by omega))))

theorem exec_ret_cases {g : Nibble} (h : exec (.ret g) s = .next t) :
    (∃ hpos : 0 < s.sp.val, t = { s with
      sp := ⟨s.sp.val - 1, by omega⟩, pc := s.stack[s.sp.val - 1]'(by have := s.sp.isLt; omega) }) ∨
      t = s.raiseIn (.ret g) .stackUnderflow := by
  rcases Nat.eq_zero_or_pos s.sp.val with hempty | hpos
  · exact Or.inr (Host.Outcome.next.inj (h.symm.trans (exec_ret_of_empty s g hempty)))
  · exact Or.inl ⟨hpos, Host.Outcome.next.inj (h.symm.trans (exec_ret_of_pos s g hpos))⟩

/-! ### The parts an instruction writes, and its fault -/

/-- The parts an instruction writes where it does not fault (files 40 to 48 of `spec/`). -/
def writtenParts : Instr → List Part
  | .jp _ | .jpV0 _ | .seImm _ _ | .sneImm _ _ | .seReg _ _ _ | .sneReg _ _ _ => [.pc]
  | .call _ => [.stackEntries, .sp, .pc]
  | .ret _ => [.sp, .pc]
  | .ldImm _ _ | .addImm _ _ | .ldReg _ _ | .orReg _ _ | .andReg _ _ | .xorReg _ _ => [.registers]
  | .addReg _ _ | .subReg _ _ | .shr _ _ | .subnReg _ _ | .shl _ _ => [.registers]
  | .ldI _ | .addI _ | .ldF _ => [.index]
  | .rnd _ _ => [.registers, .randomInput]
  | .cls _ => [.screen]
  | .drw _ _ _ => [.registers, .screen]
  | .skp _ | .sknp _ => [.pc, .keyInput]
  | .ldVxK _ => [.registers, .ir, .keyWait, .keyInput]
  | .ldVxDt _ | .loadRegs _ => [.registers]
  | .ldDtVx _ => [.delayTimer]
  | .ldStVx _ => [.soundTimer, .outputs]
  | .ldB _ | .storeRegs _ => [.memory]

/-- The one fault an instruction can raise (`spec/60_exceptions.md` R202 to R204). -/
def faultOf : Instr → Option FaultKind
  | .call _ => some .stackOverflow
  | .ret _ => some .stackUnderflow
  | .drw _ _ _ | .ldB _ | .storeRegs _ | .loadRegs _ => some .memoryBounds
  | _ => none

/-- An instruction writes its parts and nothing else, or it raises its fault. -/
theorem exec_outcome (h : exec i s = .next t) :
    SameExcept (writtenParts i) s t ∨ ∃ k, faultOf i = some k ∧ t = s.raiseIn i k := by
  cases i with
  | call nnn =>
    rcases exec_call_cases h with ⟨hroom, rfl⟩ | rfl
    · exact Or.inl (stackSpPc_frame s _ _ _)
    · exact Or.inr ⟨_, rfl, rfl⟩
  | ret g =>
    rcases exec_ret_cases h with ⟨hpos, rfl⟩ | rfl
    · exact Or.inl (spPc_frame s _ _)
    · exact Or.inr ⟨_, rfl, rfl⟩
  | drw x y n =>
    rcases next_ite_cases h with ⟨-, rfl⟩ | ⟨-, rfl⟩
    · exact Or.inl (s.drawn_frame _)
    · exact Or.inr ⟨_, rfl, rfl⟩
  | ldB x | storeRegs x =>
    rcases next_ite_cases h with ⟨-, rfl⟩ | ⟨-, rfl⟩
    · exact Or.inl (sameExcept_memory (State.writeBytes_frame _ s _))
    · exact Or.inr ⟨_, rfl, rfl⟩
  | loadRegs x =>
    rcases next_ite_cases h with ⟨-, rfl⟩ | ⟨-, rfl⟩
    · exact Or.inl (sameExcept_registers (State.setRegsFrom_frame _ s _))
    · exact Or.inr ⟨_, rfl, rfl⟩
  | ldVxK x =>
    rcases execLdVxK_cases h with ⟨k, -, rfl⟩ | ⟨-, rfl⟩
    · exact Or.inl ((s.keyTaken_frame.trans_append (s.keyTaken.setReg_frame x _)).mono (by simp [writtenParts]))
    · exact Or.inl ((s.keyTaken_frame.trans_append (s.keyTaken.enterWait_frame _)).mono (by simp [writtenParts]))
  | jp _ | jpV0 _ | seImm _ _ | sneImm _ _ | seReg _ _ _ | sneReg _ _ _ =>
    obtain rfl := Host.Outcome.next.inj h
    exact Or.inl (s.jump_frame _)
  | skp x | sknp x =>
    obtain rfl := Host.Outcome.next.inj h
    exact Or.inl (s.skipIf_keyTaken_frame _)
  | ldI _ | addI _ | ldF _ =>
    obtain rfl := Host.Outcome.next.inj h
    exact Or.inl (s.setIndex_frame _)
  | rnd x nn =>
    obtain rfl := Host.Outcome.next.inj h
    exact Or.inl (s.randomTaken_frame.trans_append (s.randomTaken.setReg_frame x _))
  | cls _ =>
    obtain rfl := Host.Outcome.next.inj h
    exact Or.inl (screen_frame s _)
  | ldDtVx x =>
    obtain rfl := Host.Outcome.next.inj h
    exact Or.inl (delayTimer_frame s _)
  | ldStVx x =>
    obtain rfl := Host.Outcome.next.inj h
    exact Or.inl (soundTimerOutputs_frame s _ _)
  | _ =>
    obtain rfl := Host.Outcome.next.inj h
    exact Or.inl (registers_frame s _)

/-- A part that neither the instruction nor a fatal fault entry writes is the same after it. -/
theorem exec_same_part {p : Part} (h : exec i s = .next t) (hp : p ∉ writtenParts i)
    (hf : p ∉ [.faultRecord, .runState, .keyWait, .outputs]) : p.same s t := by
  rcases exec_outcome h with hframe | ⟨k, -, rfl⟩
  · exact hframe p hp
  · obtain ⟨-, -, -, -, -, -, hframe⟩ := s.raiseIn_entry i k
    exact hframe p hf

/-! ### The writers of each part -/

theorem runState_not_mem_writtenParts (i : Instr) : .runState ∉ writtenParts i := by cases i <;> simp [writtenParts]

theorem faultRecord_not_mem_writtenParts (i : Instr) : .faultRecord ∉ writtenParts i := by
  cases i <;> simp [writtenParts]

theorem writers_index (h : .index ∈ writtenParts i) : (∃ a, i = .ldI a) ∨ ∃ x, i = .addI x ∨ i = .ldF x := by
  cases i <;> simp [writtenParts] at h ⊢

theorem writers_stackEntries (h : .stackEntries ∈ writtenParts i) : ∃ a, i = .call a := by
  cases i <;> simp [writtenParts] at h ⊢

theorem writers_sp (h : .sp ∈ writtenParts i) : (∃ a, i = .call a) ∨ ∃ g, i = .ret g := by
  cases i <;> simp [writtenParts] at h ⊢

theorem writers_screen (h : .screen ∈ writtenParts i) : (∃ x y n, i = .drw x y n) ∨ ∃ g, i = .cls g := by
  cases i <;> simp [writtenParts] at h ⊢

theorem writers_memory (h : .memory ∈ writtenParts i) : ∃ x, i = .ldB x ∨ i = .storeRegs x := by
  cases i <;> simp [writtenParts] at h ⊢

theorem writers_delayTimer (h : .delayTimer ∈ writtenParts i) : ∃ x, i = .ldDtVx x := by
  cases i <;> simp [writtenParts] at h ⊢

theorem writers_soundTimer (h : .soundTimer ∈ writtenParts i) : ∃ x, i = .ldStVx x := by
  cases i <;> simp [writtenParts] at h ⊢

theorem writers_ir (h : .ir ∈ writtenParts i) : ∃ x, i = .ldVxK x := by
  cases i <;> simp [writtenParts] at h ⊢

theorem writers_keyWait (h : .keyWait ∈ writtenParts i) : ∃ x, i = .ldVxK x := by
  cases i <;> simp [writtenParts] at h ⊢

theorem writers_pc (h : .pc ∈ writtenParts i) :
    (∃ a, i = .jp a ∨ i = .jpV0 a ∨ i = .call a) ∨ (∃ g, i = .ret g) ∨
      (∃ x nn, i = .seImm x nn ∨ i = .sneImm x nn) ∨ (∃ x y g, i = .seReg x y g ∨ i = .sneReg x y g) ∨
      ∃ x, i = .skp x ∨ i = .sknp x := by
  cases i <;> simp [writtenParts] at h ⊢

theorem writers_keyInput (h : .keyInput ∈ writtenParts i) : ∃ x, i = .skp x ∨ i = .sknp x ∨ i = .ldVxK x := by
  cases i <;> simp [writtenParts] at h ⊢

theorem writers_randomInput (h : .randomInput ∈ writtenParts i) : ∃ x nn, i = .rnd x nn := by
  cases i <;> simp [writtenParts] at h ⊢

/-- A part that a fatal fault entry does not write changes only by the instructions that write it. -/
theorem same_or_writer {p : Part} {writer : Prop} (h : exec i s = .next t)
    (hf : p ∉ [.faultRecord, .runState, .keyWait, .outputs]) (hw : p ∈ writtenParts i → writer) :
    p.same s t ∨ writer := by
  by_cases hp : p ∈ writtenParts i
  · exact Or.inr (hw hp)
  · exact Or.inl (exec_same_part h hp hf)

/-- WAITKEY changes only by `FX0A` and by a fatal fault entry (R168, R206). -/
theorem exec_keyWait (h : exec i s = .next t) :
    t.waitKey = s.waitKey ∨ (∃ x, i = .ldVxK x) ∨ ∃ kind, FatalEntry kind (encode i) (s.pc - 2) s t := by
  rcases exec_outcome h with hframe | ⟨k, -, rfl⟩
  · by_cases hp : .keyWait ∈ writtenParts i
    · exact Or.inr (Or.inl (writers_keyWait hp))
    · exact Or.inl (hframe .keyWait hp)
  · exact Or.inr (Or.inr ⟨k, s.raiseIn_entry i k⟩)

/-! ### Faults -/

/-- Which instruction raises which fault (R202 to R204). -/
theorem faultOf_cases {k : FaultKind} (h : faultOf i = some k) :
    (k = .stackOverflow ∧ ∃ nnn, i = .call nnn) ∨ (k = .stackUnderflow ∧ ∃ g, i = .ret g) ∨
      (k = .memoryBounds ∧
        ((∃ x y n, i = .drw x y n) ∨ ∃ x, i = .ldB x ∨ i = .storeRegs x ∨ i = .loadRegs x)) := by
  cases i <;> simp [faultOf] at h ⊢ <;> exact h.symm

end

/-- Settles O40: an instruction leaves RUN_STATE and the fault record out of what it writes, or raises its fault. -/
theorem faultsArePreciseAndAttributed : Obligations.FaultsArePreciseAndAttributed := by
  unfold Obligations.FaultsArePreciseAndAttributed
  intro i s t hrun h
  rcases exec_outcome h with hframe | ⟨k, hk, rfl⟩
  · have hrun' : t.runState = s.runState := hframe .runState (runState_not_mem_writtenParts i)
    exact Or.inl ⟨hrun'.trans hrun, hframe .faultRecord (faultRecord_not_mem_writtenParts i)⟩
  · exact Or.inr ⟨k, s.raiseIn_entry i k, faultOf_cases hk⟩

/-- Settles O41: part by part, the instructions that list it among what they write; a fatal fault entry writes none of
these parts but WAITKEY. -/
theorem eachStoreHasItsWriters : Obligations.EachStoreHasItsWriters := by
  unfold Obligations.EachStoreHasItsWriters
  intro i s t h
  obtain ⟨hfont, hrate, hagenda⟩ := exec_sameHostSide h
  exact ⟨same_or_writer (p := .index) h (by decide) writers_index,
    same_or_writer (p := .stackEntries) h (by decide) writers_stackEntries,
    same_or_writer (p := .sp) h (by decide) writers_sp, same_or_writer (p := .screen) h (by decide) writers_screen,
    same_or_writer (p := .memory) h (by decide) writers_memory,
    same_or_writer (p := .delayTimer) h (by decide) writers_delayTimer,
    same_or_writer (p := .soundTimer) h (by decide) writers_soundTimer,
    same_or_writer (p := .ir) h (by decide) writers_ir, exec_keyWait h,
    same_or_writer (p := .pc) h (by decide) writers_pc,
    same_or_writer (p := .keyInput) h (by decide) writers_keyInput,
    same_or_writer (p := .randomInput) h (by decide) writers_randomInput, hfont, hrate, hagenda⟩

end Sys2Proof.Machine

/-! PROOFS. The register file and what instructions read (`spec/10_state.md` R20, R21; `spec/60_exceptions.md` R224):
the registers an instruction changes, and the state no instruction reads. -/

namespace Sys2Proof.Machine

section

variable {s t : State} {i : Instr}

/-! ### The registers that change -/

theorem State.setReg_sameRegsBut (s : State) (x : Reg) (b : Byte) : SameRegsBut [x] s (s.setReg x b) :=
  fun r hr => by rw [State.reg_setReg, if_neg (List.ne_of_not_mem_cons hr)]

theorem State.setRegAndFlag_sameRegsBut (s : State) (x : Reg) (b : Byte) (c : Bool) :
    SameRegsBut [x, vf] s (s.setRegAndFlag x b c) := by
  intro r hr
  obtain ⟨hrx, hrf⟩ : r ≠ x ∧ r ≠ vf := by simpa using hr
  rw [State.reg_setRegAndFlag, if_neg hrf, if_neg hrx]

theorem State.setRegAndFlag_flag (s : State) (x : Reg) (b : Byte) (c : Bool) :
    (s.setRegAndFlag x b c).reg vf = flagByte c := by rw [State.reg_setRegAndFlag, if_pos rfl]

theorem mem_destinations_loadRegs {x r : Reg} (h : r.toNat ≤ x.toNat) : r ∈ destinations (.loadRegs x) :=
  List.mem_map.mpr ⟨r.toNat, List.mem_range.mpr (Nat.lt_succ_of_le h), by simp⟩

/-- The registers an instruction may change: its destinations, and VF where it writes the flag. -/
def changedRegs (i : Instr) : List Reg := destinations i ++ if writesFlag i = true then [vf] else []

theorem exec_sameRegsBut (h : exec i s = .next t) : SameRegsBut (changedRegs i) s t := by
  by_cases hp : .registers ∈ writtenParts i
  · cases i with
    | ldImm _ _ | addImm _ _ | ldReg _ _ | orReg _ _ | andReg _ _ | xorReg _ _ | ldVxDt _ | rnd _ _ =>
      obtain rfl := Host.Outcome.next.inj h
      exact State.setReg_sameRegsBut _ _ _
    | addReg _ _ | subReg _ _ | shr _ _ | subnReg _ _ | shl _ _ =>
      obtain rfl := Host.Outcome.next.inj h
      exact s.setRegAndFlag_sameRegsBut _ _ _
    | ldVxK x =>
      rcases execLdVxK_cases h with ⟨k, -, rfl⟩ | ⟨-, rfl⟩
      · exact s.keyTaken.setReg_sameRegsBut _ _
      · exact fun _ _ => rfl
    | drw x y n =>
      rcases next_ite_cases h with ⟨-, rfl⟩ | ⟨-, rfl⟩
      · exact s.drawn_sameRegsBut _
      · exact fun _ _ => rfl
    | loadRegs x =>
      rcases next_ite_cases h with ⟨-, rfl⟩ | ⟨-, rfl⟩
      · intro r hr
        have hout : ¬ r.toNat ≤ x.toNat := fun hle => hr (List.mem_append_left _ (mem_destinations_loadRegs hle))
        rw [State.reg_setRegsFrom_readBytes, if_neg hout]
      · exact fun _ _ => rfl
    | _ => simp [writtenParts] at hp
  · exact fun r _ => exec_same_part (p := .registers) h hp (by decide) r

theorem flagByte_eq (c : Bool) : flagByte c = 0 ∨ flagByte c = 1 := by cases c <;> simp [flagByte]

/-- A flag writer leaves 0 or 1 in VF, or it faults (R21). -/
theorem exec_flag (h : exec i s = .next t) (hw : writesFlag i = true) :
    (∃ c, t.reg vf = flagByte c) ∨ t.runState = .stopped := by
  cases i with
  | addReg _ _ | subReg _ _ | shr _ _ | subnReg _ _ | shl _ _ =>
    obtain rfl := Host.Outcome.next.inj h
    exact Or.inl ⟨_, s.setRegAndFlag_flag _ _ _⟩
  | drw x y n =>
    rcases next_ite_cases h with ⟨-, rfl⟩ | ⟨-, rfl⟩
    · exact Or.inl ⟨_, s.drawn_flag _⟩
    · exact Or.inr rfl
  | _ => exact absurd hw Bool.false_ne_true

/-! ### The state no instruction reads -/

/-- `s` with the control state of `c`: RUN_STATE, the fault record, CYCLE_RATE, ST, the agenda and the outputs. -/
def State.withControl (s c : State) : State :=
  { s with
    runState := c.runState, faultKind := c.faultKind, faultOpcode := c.faultOpcode, faultPc := c.faultPc
    cycleRate := c.cycleRate, st := c.st, agenda := c.agenda, outputs := c.outputs }

/-- The parts that `State.withControl` replaces. -/
def controlParts : List Part := [.runState, .faultRecord, .cycleRate, .soundTimer, .outputs, .agenda]

theorem State.withControl_frame (s c : State) : SameExcept controlParts s (s.withControl c) := by
  intro p hp
  cases p with
  | runState | faultRecord | cycleRate | soundTimer | outputs | agenda => exact absurd hp (by decide)
  | registers | memory => exact fun _ => rfl
  | keyInput | randomInput => exact ⟨rfl, rfl⟩
  | index | pc | stackEntries | sp | delayTimer | screen | font | keyWait | ir => rfl

/-- Registers read alike are the same register file. -/
theorem State.v_eq_of_reg_eq (h : ∀ r, t.reg r = s.reg r) : t.v = s.v := by
  apply Vector.ext
  intro k hk
  have hr := h (BitVec.ofNat 4 k)
  have hk' : (BitVec.ofNat 4 k).toNat = k := Nat.mod_eq_of_lt hk
  simpa only [State.reg, hk'] using hr

/-- Two states with canonical memory that agree outside the control state differ in the control state alone. -/
theorem eq_withControl_of_sameExcept (hs : Memory.wf s.font s.mem = true) (ht : Memory.wf t.font t.mem = true)
    (h : SameExcept controlParts s t) : t = s.withControl t := by
  have hv := State.v_eq_of_reg_eq (h .registers (by decide))
  have hfont : t.font = s.font := h .font (by decide)
  have hmem : t.mem = s.mem := by
    refine Memory.ext_of_wf s.font (hfont ▸ ht) hs fun a => ?_
    have ha : t.byteAt a = s.byteAt a := h .memory (by decide) a
    rwa [State.byteAt, State.byteAt, hfont] at ha
  obtain ⟨hfeed, hdraws⟩ := h .keyInput (by decide)
  obtain ⟨hrfeed, hrdraws⟩ := h .randomInput (by decide)
  have hi : t.i = s.i := h .index (by decide)
  have hpc : t.pc = s.pc := h .pc (by decide)
  have hstack : t.stack = s.stack := h .stackEntries (by decide)
  have hsp : t.sp = s.sp := h .sp (by decide)
  have hdt : t.dt = s.dt := h .delayTimer (by decide)
  have hfb : t.fb = s.fb := h .screen (by decide)
  have hwait : t.waitKey = s.waitKey := h .keyWait (by decide)
  have hir : t.ir = s.ir := h .ir (by decide)
  rw [State.withControl, ← hv, ← hi, ← hpc, ← hstack, ← hsp, ← hdt, ← hfb, ← hmem, ← hfont, ← hwait, ← hir,
    ← hfeed, ← hdraws, ← hrfeed, ← hrdraws]

theorem State.withControl_writeBytes (c : State) :
    ∀ (bytes : List Byte) (s : State) (a : Nat),
      (s.withControl c).writeBytes a bytes = (s.writeBytes a bytes).withControl c
  | [], _, _ => rfl
  | b :: rest, s, a => State.withControl_writeBytes c rest (s.setByte a b) (a + 1)

theorem State.withControl_setRegsFrom (c : State) :
    ∀ (bytes : List Byte) (s : State) (k : Nat),
      (s.withControl c).setRegsFrom k bytes = (s.setRegsFrom k bytes).withControl c
  | [], _, _ => rfl
  | b :: rest, s, k => State.withControl_setRegsFrom c rest (s.setReg (BitVec.ofNat 4 k) b) (k + 1)

/-- A fault writes the control state and the end of the wait, whatever the control state was. -/
theorem State.withControl_raiseIn (s c : State) (i : Instr) (k : FaultKind) :
    (s.withControl c).raiseIn i k = (s.raiseIn i k).withControl ((s.withControl c).raiseIn i k) := rfl

/-- An instruction run with another control state does the same to the rest of the state. -/
theorem exec_withControl (i : Instr) (s c : State) :
    ∃ t c', exec i s = .next t ∧ exec i (s.withControl c) = .next (t.withControl c') := by
  have hraise (k : FaultKind) : (.next ((s.withControl c).raiseIn i k) : Host.Outcome State Fault Refusal) =
      .next ((s.raiseIn i k).withControl ((s.withControl c).raiseIn i k)) := congrArg _ (s.withControl_raiseIn c i k)
  cases i with
  | call nnn =>
    have hsp := s.sp.isLt
    rcases Nat.lt_or_ge s.sp.val 16 with hroom | hfull
    · exact ⟨_, c, exec_call_of_room s nnn hroom, exec_call_of_room (s.withControl c) nnn hroom⟩
    · have hfull' : s.sp.val = 16 := by omega
      exact ⟨_, _, exec_call_of_full s nnn hfull', (exec_call_of_full (s.withControl c) nnn hfull').trans (hraise _)⟩
  | ret g =>
    rcases Nat.eq_zero_or_pos s.sp.val with hempty | hpos
    · exact ⟨_, _, exec_ret_of_empty s g hempty, (exec_ret_of_empty (s.withControl c) g hempty).trans (hraise _)⟩
    · exact ⟨_, c, exec_ret_of_pos s g hpos, exec_ret_of_pos (s.withControl c) g hpos⟩
  | drw x y n =>
    rcases Nat.lt_or_ge 0x1000 (s.i.toNat + s.rowsOnScreen y n) with hout | hin
    · exact ⟨_, _, exec_drw_of_outOfBounds s x y n hout,
        (exec_drw_of_outOfBounds (s.withControl c) x y n hout).trans (hraise _)⟩
    · exact ⟨_, c, exec_drw_of_inBounds s x y n hin, exec_drw_of_inBounds (s.withControl c) x y n hin⟩
  | ldB x =>
    rcases Nat.lt_or_ge 0xFFF (s.i.toNat + 2) with hout | hin
    · exact ⟨_, _, next_of_outOfBounds hout, (next_of_outOfBounds hout).trans (hraise _)⟩
    · exact ⟨_, _, next_of_inBounds hin,
        (next_of_inBounds hin).trans (congrArg _ (State.withControl_writeBytes c _ s _))⟩
  | storeRegs x =>
    rcases Nat.lt_or_ge 0xFFF (s.i.toNat + x.toNat) with hout | hin
    · exact ⟨_, _, next_of_outOfBounds hout, (next_of_outOfBounds hout).trans (hraise _)⟩
    · exact ⟨_, _, next_of_inBounds hin,
        (next_of_inBounds hin).trans (congrArg _ (State.withControl_writeBytes c _ s _))⟩
  | loadRegs x =>
    rcases Nat.lt_or_ge 0xFFF (s.i.toNat + x.toNat) with hout | hin
    · exact ⟨_, _, next_of_outOfBounds hout, (next_of_outOfBounds hout).trans (hraise _)⟩
    · exact ⟨_, _, next_of_inBounds hin,
        (next_of_inBounds hin).trans (congrArg _ (State.withControl_setRegsFrom c _ s _))⟩
  | ldVxK x =>
    cases hk : s.key with
    | some k => exact ⟨_, c, exec_ldVxK_of_key s x hk, exec_ldVxK_of_key (s.withControl c) x hk⟩
    | none => exact ⟨_, c, exec_ldVxK_of_noKey s x hk, exec_ldVxK_of_noKey (s.withControl c) x hk⟩
  | ldStVx x =>
    exact ⟨_, { s.withControl c with st := s.reg x }.emit (if s.reg x ≠ 0 then [.toneStart] else []), rfl, rfl⟩
  | _ => exact ⟨_, c, rfl, rfl⟩

end

/-- Settles O42: every register write goes to a destination or to VF as the flag, and a flag is the byte 0 or 1. -/
theorem registersChangeOnlyAsNamed : Obligations.RegistersChangeOnlyAsNamed := by
  unfold Obligations.RegistersChangeOnlyAsNamed
  intro i s t h
  refine ⟨fun r hr => ?_, fun hw _ hrun => ?_⟩
  · by_contra hout
    refine hr (exec_sameRegsBut h r fun hm => hout ?_)
    rcases List.mem_append.mp hm with hdest | hflag
    · exact Or.inl hdest
    · split at hflag
      · exact Or.inr ⟨List.mem_singleton.mp hflag, ‹_›⟩
      · exact absurd hflag List.not_mem_nil
  · rcases exec_flag h hw with ⟨c, hc⟩ | hstop
    · rw [hc]
      exact flagByte_eq c
    · exact nomatch hrun.symm.trans hstop

/-- Settles O43: the two states differ in the control state alone, and an instruction does the same to the rest. -/
theorem programsCannotSeeControlState : Obligations.ProgramsCannotSeeControlState := by
  unfold Obligations.ProgramsCannotSeeControlState
  intro i s s' t t' hs hs' hsame h h'
  obtain ⟨u, c, hu, hu'⟩ := exec_withControl i s s'
  obtain rfl := Host.Outcome.next.inj (hu.symm.trans h)
  rw [eq_withControl_of_sameExcept hs hs' hsame, hu'] at h'
  obtain rfl := Host.Outcome.next.inj h'
  exact u.withControl_frame c

end Sys2Proof.Machine

/-! PROOFS. The instruction step (`spec/60_exceptions.md` R212 to R221, R283): fetch and dispatch, the poll of a key
wait, the word that the host places, and the steps that do nothing. -/

namespace Sys2Proof.Machine

section

variable {s t : State} {i : Instr}

/-! ### Frames -/

/-- The fetch writes PC and IR alone (R212). -/
theorem State.fetched_frame (s : State) (op : Word) : SameExcept [.pc, .ir] s (s.fetched op) := by
  intro p hp
  cases p with
  | pc | ir => exact absurd hp (by decide)
  | registers | memory => exact fun _ => rfl
  | faultRecord => exact ⟨rfl, rfl, rfl⟩
  | keyInput | randomInput => exact ⟨rfl, rfl⟩
  | index | stackEntries | sp | delayTimer | soundTimer | screen | font | runState | cycleRate | keyWait | agenda
  | outputs => rfl

/-- Writing RUN_STATE, WAITKEY and IR leaves every other part as it was. -/
theorem runControl_frame (s : State) (r : RunState) (wait : Bool) (ir : Word) :
    SameExcept [.runState, .keyWait, .ir] s { s with runState := r, waitKey := wait, ir := ir } := by
  intro p hp
  cases p with
  | runState | keyWait | ir => exact absurd hp (by decide)
  | registers | memory => exact fun _ => rfl
  | faultRecord => exact ⟨rfl, rfl, rfl⟩
  | keyInput | randomInput => exact ⟨rfl, rfl⟩
  | index | pc | stackEntries | sp | delayTimer | soundTimer | screen | font | cycleRate | agenda | outputs => rfl

/-- Writing WAITKEY leaves every other part as it was. -/
theorem keyWait_frame (s : State) (wait : Bool) : SameExcept [.keyWait] s { s with waitKey := wait } :=
  (((runControl_frame s s.runState wait s.ir).drop rfl).mono (qs := [.ir, .keyWait]) (by decide)).drop rfl

/-- A poll writes the sampled register, WAITKEY and the key input (R169). -/
theorem State.poll_frame (s : State) : SameExcept [.registers, .keyWait, .keyInput] s s.poll := by
  rcases s.poll_cases with ⟨k, -, e⟩ | ⟨-, e⟩
  · rw [e]
    exact ((s.keyTaken_frame.trans_append (s.keyTaken.setReg_frame _ _)).trans_append
      (keyWait_frame _ false)).mono (by decide)
  · rw [e]
    exact s.keyTaken_frame.mono (by decide)

/-- The word the next fetch reads depends on PC and memory alone (R53). -/
theorem State.fetchWord_of_same (hpc : t.pc = s.pc) (hmem : ∀ a, t.byteAt a = s.byteAt a) :
    t.fetchWord = s.fetchWord := by simp only [State.fetchWord, hpc, hmem]

/-! ### Fetch and dispatch -/

/-- In a ready state the step is one fetch-decode-execute cycle (R212). -/
theorem step_of_ready (hr : s.ready) : step s = cycle s.begun := by
  obtain ⟨hrun, hwait, hdue⟩ := hr
  have hrun' : s.begun.runState = .running := hrun
  have hwait' : s.begun.waitKey = false := hwait
  simp only [step, hdue, perform, instructionStep, hrun', hwait', if_true, Bool.false_eq_true, if_false]

theorem cycle_of_rejected {op : Word} {r : Reject} (hf : s.fetchWord = some op) (hd : decodeWord op = .error r) :
    cycle s = .next ((s.fetched op).unimplemented op s.pc) := by simp only [cycle, hf, hd]

/-! ### Every step has a successor -/

theorem exec_total (i : Instr) (s : State) : ∃ t, exec i s = .next t :=
  have ⟨t, _, h, _⟩ := exec_withControl i s s
  ⟨t, h⟩

theorem cycle_total (s : State) : ∃ t, cycle s = .next t := by
  cases hf : s.fetchWord with
  | none => exact ⟨_, cycle_of_fetchWord_none s hf⟩
  | some op =>
    cases hd : decodeWord op with
    | ok i =>
      simp only [cycle, hf, hd]
      exact exec_total i _
    | error r => exact ⟨_, cycle_of_rejected hf hd⟩

theorem instructionStep_total (s : State) : ∃ t, instructionStep s = .next t := by
  unfold instructionStep
  split
  · split
    · exact ⟨_, rfl⟩
    · exact cycle_total s
  · exact ⟨_, rfl⟩

theorem perform_total (s : State) (e : Event) : ∃ t, perform s e = .next t := by
  cases e with
  | step => exact instructionStep_total s
  | tornStep reads =>
    obtain ⟨t, ht⟩ := instructionStep_total s
    exact ⟨_, congrArg (mapNext _) ht⟩
  | tick | command c | setCycleRate rate | readCell p => exact ⟨_, rfl⟩

/-! ### The word that the host places -/

theorem decodeWord_of_decodeTableWord {nbits w : Nat} (h : decodeTableWord nbits w = some i) :
    decodeWord (tableWord nbits w) = .ok i := by
  unfold decodeTableWord at h
  rw [← List.append_nil (bytesOfWord _), decode_bytesOfWord] at h
  cases hd : decodeWord (tableWord nbits w) with
  | ok j =>
    rw [hd] at h
    exact congrArg _ (Option.some.inj h)
  | error r =>
    rw [hd] at h
    exact nomatch h

theorem State.fetchAddress_of_le (h : s.pc.toNat ≤ 0xFFE) : s.fetchAddress = s.pc :=
  if_pos ((inBounds_iff _ _).mpr (by omega))

theorem State.fetchAddress_of_gt (h : 0xFFE < s.pc.toNat) : s.fetchAddress = 0x200 :=
  if_neg fun hin => absurd ((inBounds_iff _ _).mp hin) (by omega)

/-- A word can be fetched from where the host places one. -/
theorem State.fetchAddress_le (s : State) : s.fetchAddress.toNat ≤ 0xFFE := by
  rcases Nat.lt_or_ge 0xFFE s.pc.toNat with h | h
  · rw [State.fetchAddress_of_gt h]
    decide
  · rw [State.fetchAddress_of_le h]
    exact h

/-- The two bytes of the placed word are the only ones that change. -/
theorem State.primed_bytes (s : State) (w : Word) (hwf : Memory.wf s.font s.mem = true) :
    (s.primed w).byteAt s.fetchAddress.toNat = w.extractLsb' 8 8 ∧
      (s.primed w).byteAt (s.fetchAddress.toNat + 1) = w.extractLsb' 0 8 ∧
      SameBytesOutside s.fetchAddress.toNat 2 s (s.primed w) := by
  have hfit : s.fetchAddress.toNat + (bytesOfWord w).length ≤ Config.memSize :=
    Nat.add_le_add_right s.fetchAddress_le 2
  obtain ⟨hbytes, houtside, -⟩ := s.writeBytes_spec hwf hfit
  exact ⟨hbytes 0 (by simp [bytesOfWord]), hbytes 1 (by simp [bytesOfWord]), houtside⟩

/-- The next fetch reads the placed word. -/
theorem State.fetchWord_primed (s : State) (w : Word) (hwf : Memory.wf s.font s.mem = true) :
    (s.primed w).fetchWord = some w := by
  obtain ⟨hhigh, hlow, -⟩ := s.primed_bytes w hwf
  have hpc : (s.primed w).pc = s.fetchAddress := rfl
  rw [State.fetchWord_of_le _ s.fetchAddress_le, hpc, hhigh, hlow, wordOfBytes_bytes]

/-- Making a state ready to fetch from `a` leaves every part but PC, RUN_STATE, WAITKEY and the agenda as it was. -/
theorem readied_frame (s : State) (a : Word) : SameExcept [.pc, .runState, .keyWait, .agenda] s
    { s with pc := a, runState := .running, waitKey := false, agenda := [] } := by
  intro p hp
  cases p with
  | pc | runState | keyWait | agenda => exact absurd hp (by decide)
  | registers | memory => exact fun _ => rfl
  | faultRecord => exact ⟨rfl, rfl, rfl⟩
  | keyInput | randomInput => exact ⟨rfl, rfl⟩
  | index | stackEntries | sp | delayTimer | soundTimer | screen | font | cycleRate | ir | outputs => rfl

theorem State.primed_frame (s : State) (w : Word) :
    SameExcept [.pc, .runState, .keyWait, .agenda, .memory] s (s.primed w) :=
  (sameExcept_memory (State.writeBytes_frame (bytesOfWord w) s s.fetchAddress.toNat)).trans_append (readied_frame _ _)

/-! ### Steps that do nothing -/

theorem instructionStep_of_idle (h : s.runState ≠ .running) : instructionStep s = .next s := if_neg h

theorem State.tickIfRunning_of_idle (h : s.runState ≠ .running) : s.tickIfRunning = s := if_neg h

end

/-- Settles O13: every instruction has a successor, so every cycle, step and event has. -/
theorem everyStepAnswersANextState : Obligations.EveryStepAnswersANextState := by
  unfold Obligations.EveryStepAnswersANextState
  exact fun s => perform_total s.begun s.due

/-- Settles O8: the placed bytes are where the fetch reads, and the rest of memory is as before. -/
theorem placedWordRunsNext : Obligations.PlacedWordRunsNext := by
  unfold Obligations.PlacedWordRunsNext
  intro s w i hwf hdec
  have hstep := step_of_decoded (s := s.primed (tableWord 16 w)) ⟨rfl, rfl, rfl⟩ (s.fetchWord_primed _ hwf)
    (decodeWord_of_decodeTableWord hdec)
  have hle := s.fetchAddress_le
  obtain ⟨-, -, houtside⟩ := s.primed_bytes (tableWord 16 w) hwf
  refine ⟨_, hstep, ?_, fun hpc => ?_, fun hpc => ?_, fun a ha ha' => houtside a ?_, ?_⟩
  · exact BitVec.eq_of_toNat_eq (Nat.mod_mod w (2 ^ 16))
  · show s.fetchAddress + 2 = _
    rw [State.fetchAddress_of_le hpc]
  · show s.fetchAddress + 2 = _
    rw [State.fetchAddress_of_gt hpc]
    rfl
  · have hpc : (s.fetchAddress + 2).toNat = s.fetchAddress.toNat + 2 := by bv_omega
    have ha : a ≠ (s.fetchAddress + 2).toNat - 2 := ha
    have ha' : a ≠ (s.fetchAddress + 2).toNat - 1 := ha'
    omega
  · exact (((s.primed_frame _).trans_append (State.begun_frame _)).trans_append (State.fetched_frame _ _)).mono
      (by decide)

/-- Settles O9: the fetch, then one diagnostic. -/
theorem unimplementedWordIsLoggedAndPassed : Obligations.UnimplementedWordIsLoggedAndPassed := by
  unfold Obligations.UnimplementedWordIsLoggedAndPassed
  intro s w hr hpc hw hspace
  have hf : s.begun.fetchWord = some w := (s.begun.fetchWord_of_le hpc).trans (congrArg some hw)
  have hstep := (step_of_ready hr).trans (cycle_of_rejected hf (inUnimplementedSpace_iff.mp hspace))
  exact ⟨_, hstep, rfl, rfl, rfl, rfl, ((s.begun_frame.trans_append (s.begun.fetched_frame w)).trans_append
    (State.emit_frame _ _)).mono (by decide)⟩

/-- Settles O11: the step is one poll, which ends the wait where the sample shows a key. -/
theorem keyWaitPolls : Obligations.KeyWaitPolls := by
  unfold Obligations.KeyWaitPolls
  intro s hrun hwait hdue
  have hsample : s.begun.poll.keyFeed = s.keyFeed.tail ∧ s.begun.poll.keyDraws = s.keyDraws + 1 ∧
      s.begun.poll.agenda = s.agenda.tail := by
    rcases s.begun.poll_cases with ⟨k, -, e⟩ | ⟨-, e⟩
    · rw [e]; exact ⟨rfl, rfl, rfl⟩
    · rw [e]; exact ⟨rfl, rfl, rfl⟩
  obtain ⟨hfeed, hdraws, hagenda⟩ := hsample
  refine ⟨_, step_of_keyWait s hrun hwait hdue, fun k hk => ?_, fun hk => ?_, hfeed, hdraws, hagenda,
    s.begun_frame.trans_append s.begun.poll_frame⟩
  · rw [s.begun.poll_of_key hk]
    exact ⟨State.reg_setReg_same _ _ _, State.setReg_sameRegsBut _ _ _, rfl⟩
  · rw [s.begun.poll_of_noKey hk]
    exact ⟨fun r => rfl, hwait⟩

/-- Settles O6: no meaning looks at the ignored bits but the fault entry of `00EE`, which records its word. -/
theorem unexaminedBitsChangeNothing : Obligations.UnexaminedBitsChangeNothing := by
  unfold Obligations.UnexaminedBitsChangeNothing
  intro s a b x y y'
  refine ⟨rfl, rfl, rfl, rfl, rfl, fun hpos => ?_, fun hempty g => ?_⟩
  · rw [exec_ret_of_pos s a hpos, exec_ret_of_pos s b hpos]
  · exact ⟨_, exec_ret_of_empty s g hempty, s.raiseIn_entry (.ret g) .stackUnderflow⟩

/-- Settles O7: a ready step is a cycle, whose fetch reads the two bytes at PC. -/
theorem stepRunsTheDecodedInstruction : Obligations.StepRunsTheDecodedInstruction := by
  unfold Obligations.StepRunsTheDecodedInstruction
  intro s w i hr hpc hw hd
  exact step_of_decoded hr ((s.begun.fetchWord_of_le hpc).trans (congrArg some hw)) hd

/-- Settles O10: there is no word to fetch, so the cycle is the fetch fault. -/
theorem fetchBeyondMemoryFaults : Obligations.FetchBeyondMemoryFaults := by
  unfold Obligations.FetchBeyondMemoryFaults
  exact fun s hr hpc => ⟨_, step_of_fetch_beyond_memory s hr hpc, s.begun.fetchFault_entry⟩

/-- Settles O12: both events are enabled only in Running. -/
theorem nothingRunsUnlessRunning : Obligations.NothingRunsUnlessRunning := by
  unfold Obligations.NothingRunsUnlessRunning
  intro s hidle hdue
  have hidle' : s.begun.runState ≠ .running := hidle
  rcases hdue with hdue | hdue
  · rw [step, hdue, perform, instructionStep_of_idle hidle']
    rfl
  · rw [step, hdue, perform, State.tickIfRunning_of_idle hidle']
    rfl

/-- Settles O57: the fetched jump goes back to its own address, where the same word is read again. -/
theorem finishedProgramSpins : Obligations.FinishedProgramSpins := by
  unfold Obligations.FinishedProgramSpins
  intro s ⟨nnn, hf, hpc, hwait⟩ hrun hdue
  have hstep : step s = .next ((s.begun.fetched (encode (.jp nnn))).jump (jumpTarget nnn)) :=
    step_of_decoded ⟨hrun, hwait, hdue⟩ hf (decodeWord_encode _)
  have hback : ((s.begun.fetched (encode (.jp nnn))).jump (jumpTarget nnn)).pc = s.pc := hpc.symm
  refine ⟨_, hstep, hback, ⟨nnn, ?_, rfl, hwait⟩, rfl, ?_⟩
  · exact (State.fetchWord_of_same hback fun _ => rfl).trans hf
  · have hframe := ((s.begun_frame.trans_append (s.begun.fetched_frame (encode (.jp nnn)))).trans_append
      (State.jump_frame _ (jumpTarget nnn))).mono (qs := [.pc, .ir, .agenda]) (by decide)
    exact hframe.drop hback

end Sys2Proof.Machine

/-! PROOFS. What every event keeps (`spec/10_state.md` R42): the invariant, and the ranges of PC and the live stack
entries. Each is proved for instructions, then for polls and cycles, then for commands and the other events. -/

namespace Sys2Proof.Machine

section

variable {s t : State} {i : Instr}

/-! ### The invariant -/

/-- Outside a key wait the invariant speaks of memory and the fault record alone. -/
theorem State.Inv.of_noWait (hmem : Memory.wf s.font s.mem = true) (hwait : s.waitKey = false)
    (hfault : s.faultKind ≠ .none → s.runState = .stopped) : s.Inv :=
  have hnever : s.waitKey ≠ true := fun h => Bool.false_ne_true (hwait.symm.trans h)
  ⟨hmem, fun h => absurd h hnever, fun h => absurd h hnever, hfault⟩

/-- A Running machine that meets the invariant has no fault on record. -/
theorem State.Inv.faultKind_of_running (hs : s.Inv) (hrun : s.runState = .running) : s.faultKind = .none := by
  by_contra h
  exact nomatch hrun.symm.trans (hs.faulted h)

/-- An instruction leaves the list of cells as it was, or is a run of byte writes. -/
theorem exec_mem (h : exec i s = .next t) : t.mem = s.mem ∨ ∃ a bytes, t = s.writeBytes a bytes := by
  cases i with
  | call nnn =>
    rcases exec_call_cases h with ⟨hroom, rfl⟩ | rfl
    · exact Or.inl rfl
    · exact Or.inl rfl
  | ret g =>
    rcases exec_ret_cases h with ⟨hpos, rfl⟩ | rfl
    · exact Or.inl rfl
    · exact Or.inl rfl
  | drw x y n =>
    rcases next_ite_cases h with ⟨-, rfl⟩ | ⟨-, rfl⟩
    · exact Or.inl rfl
    · exact Or.inl rfl
  | ldVxK x =>
    rcases execLdVxK_cases h with ⟨k, -, rfl⟩ | ⟨-, rfl⟩
    · exact Or.inl rfl
    · exact Or.inl rfl
  | ldB x | storeRegs x =>
    rcases next_ite_cases h with ⟨-, rfl⟩ | ⟨-, rfl⟩
    · exact Or.inr ⟨_, _, rfl⟩
    · exact Or.inl rfl
  | loadRegs x =>
    rcases next_ite_cases h with ⟨-, rfl⟩ | ⟨-, rfl⟩
    · exact Or.inl (congrArg State.mem (State.setRegsFrom_frame _ s 0) :)
    · exact Or.inl rfl
  | _ =>
    obtain rfl := Host.Outcome.next.inj h
    exact Or.inl rfl

theorem exec_wf (hwf : Memory.wf s.font s.mem = true) (h : exec i s = .next t) : Memory.wf t.font t.mem = true := by
  rcases exec_mem h with hmem | ⟨a, bytes, rfl⟩
  · rw [hmem, (exec_sameHostSide h).font]
    exact hwf
  · exact State.writeBytes_wf bytes s a hwf

/-- Only `FX0A` starts a key wait, with its own word in IR (R168). -/
theorem exec_startsWait (hwait : s.waitKey = false) (h : exec i s = .next t) (hwait' : t.waitKey = true) :
    ∃ x, t.ir = encode (.ldVxK x) := by
  rcases exec_keyWait h with he | ⟨x, rfl⟩ | ⟨k, -, -, -, -, hw, -⟩
  · exact nomatch hwait.symm.trans (he.symm.trans hwait')
  · rcases execLdVxK_cases h with ⟨k, -, rfl⟩ | ⟨-, rfl⟩
    · exact nomatch hwait.symm.trans hwait'
    · exact ⟨x, rfl⟩
  · exact nomatch hw.symm.trans hwait'

theorem exec_inv (hs : s.Inv) (hrun : s.runState = .running) (hwait : s.waitKey = false) (h : exec i s = .next t) :
    t.Inv := by
  have hwf := exec_wf hs.memory h
  rcases exec_outcome h with hframe | ⟨k, -, rfl⟩
  · have hrun' : t.runState = s.runState := hframe .runState (runState_not_mem_writtenParts i)
    obtain ⟨hkind, -, -⟩ := hframe .faultRecord (faultRecord_not_mem_writtenParts i)
    refine ⟨hwf, fun hw => ?_, fun _ hstop => ?_, fun hf => ?_⟩
    · obtain ⟨x, hir⟩ := exec_startsWait hwait h hw
      rw [hir]
      exact ⟨opTop_packXNN _ _ _, opNN_packXNN _ _ _⟩
    · exact nomatch hrun.symm.trans (hrun'.symm.trans hstop)
    · exact absurd (hkind.trans (hs.faultKind_of_running hrun)) hf
  · exact .of_noWait hwf rfl fun _ => rfl

theorem cycle_inv (hs : s.Inv) (hrun : s.runState = .running) (hwait : s.waitKey = false) (h : cycle s = .next t) :
    t.Inv := by
  rcases cycle_cases h with ⟨-, rfl⟩ | ⟨op, i, -, -, he⟩ | ⟨op, -, -, rfl⟩
  · exact .of_noWait hs.memory rfl fun _ => rfl
  · exact exec_inv (s := s.fetched op) (.of_noWait hs.memory hwait hs.faulted) hrun hwait he
  · exact .of_noWait hs.memory hwait hs.faulted

theorem State.poll_inv (hs : s.Inv) : s.poll.Inv := by
  rcases s.poll_cases with ⟨k, -, e⟩ | ⟨-, e⟩
  · rw [e]
    exact .of_noWait hs.memory rfl hs.faulted
  · rw [e]
    exact ⟨hs.memory, hs.waitWord, hs.waitAlive, hs.faulted⟩

theorem instructionStep_inv (hs : s.Inv) (h : instructionStep s = .next t) : t.Inv := by
  rcases instructionStep_cases h with ⟨-, rfl⟩ | ⟨-, -, rfl⟩ | ⟨hrun, hwait, hc⟩
  · exact hs
  · exact s.poll_inv hs
  · exact cycle_inv hs hrun hwait hc

theorem State.emit_inv (hs : s.Inv) (os : List Output) : (s.emit os).Inv :=
  ⟨hs.memory, hs.waitWord, hs.waitAlive, hs.faulted⟩

theorem State.tickIfRunning_inv (hs : s.Inv) : s.tickIfRunning.Inv := by
  unfold State.tickIfRunning
  split
  · exact ⟨hs.memory, hs.waitWord, hs.waitAlive, hs.faulted⟩
  · exact hs

/-- Neither pause nor unpause touches Stopped (R213). -/
theorem State.pause_stopped_iff (s : State) : s.pause.runState = .stopped ↔ s.runState = .stopped := by
  cases h : s.runState <;> simp [h]

theorem State.unpause_stopped_iff (s : State) : s.unpause.runState = .stopped ↔ s.runState = .stopped := by
  cases h : s.runState <;> simp [h]

/-- What a load-state accepts (R245). -/
theorem Snapshot.accepted_iff (f : Snapshot) : f.accepted = true ↔
    f.mem.length = 4096 ∧ f.v.length = 16 ∧ f.stack.length = 16 ∧ f.fb.length = 2048 ∧ f.sp ≤ 16 ∧ f.i ≤ 0xFFF ∧
      ∀ b ∈ f.fb, b = 0 ∨ b = 1 := by
  simp [Snapshot.accepted, and_assoc]

theorem State.command_inv (hs : s.Inv) (c : Command) : (s.command c).Inv := by
  cases c with
  | reset rom =>
    show (s.resetCommand rom).Inv
    rcases Nat.lt_or_ge 3584 rom.length with hlong | hfits
    · rw [s.resetCommand_of_gt rom hlong]
      exact s.emit_inv hs _
    · rw [s.resetCommand_of_le rom hfits]
      exact .of_noWait (Memory.image_wf s.font Config.romBase rom (Nat.add_le_add_left hfits 0x200)) rfl
        fun h => absurd rfl h
  | pause =>
    exact ⟨hs.memory, hs.waitWord, fun hw => mt s.pause_stopped_iff.mp (hs.waitAlive hw),
      fun hf => s.pause_stopped_iff.mpr (hs.faulted hf)⟩
  | unpause =>
    exact ⟨hs.memory, hs.waitWord, fun hw => mt s.unpause_stopped_iff.mp (hs.waitAlive hw),
      fun hf => s.unpause_stopped_iff.mpr (hs.faulted hf)⟩
  | stop =>
    show s.stop.Inv
    unfold State.stop
    split
    · exact hs
    · exact .of_noWait hs.memory rfl fun _ => rfl
  | saveState => exact s.emit_inv hs _
  | loadState f =>
    show (s.loadCommand f).Inv
    unfold State.loadCommand
    split
    · obtain ⟨-, haccepted⟩ := ‹_›
      obtain ⟨hmem, -⟩ := f.accepted_iff.mp haccepted
      exact .of_noWait (Memory.image_wf s.font 0 f.mem (by rw [hmem])) rfl hs.faulted
    · exact s.emit_inv hs _

/-- Every event keeps the invariant (R42). -/
theorem perform_inv {e : Event} (hs : s.Inv) (h : perform s e = .next t) : t.Inv := by
  rcases perform_cases h with
    ⟨-, hi⟩ | ⟨reads, u, -, hi, rfl⟩ | ⟨-, rfl⟩ | ⟨c, -, rfl⟩ | ⟨rate, -, rfl⟩ | ⟨p, -, rfl⟩
  · exact instructionStep_inv hs hi
  · exact u.emit_inv (instructionStep_inv hs hi) _
  · exact s.tickIfRunning_inv hs
  · exact s.command_inv hs c
  · exact ⟨hs.memory, hs.waitWord, hs.waitAlive, hs.faulted⟩
  · exact s.emit_inv hs _

theorem State.begun_inv (hs : s.Inv) : s.begun.Inv := ⟨hs.memory, hs.waitWord, hs.waitAlive, hs.faulted⟩

/-! ### The ranges -/

/-- Every live stack entry is the address after a fetched word (R26, R102). -/
def State.LiveEntriesInRange (s : State) : Prop :=
  ∀ k (h : k < 16), k < s.sp.val → 2 ≤ (s.stack[k]'h).toNat ∧ (s.stack[k]'h).toNat ≤ 0x1000

/-- Only calls and returns move SP: a call adds the address after it, a return takes an entry away. -/
theorem exec_live (hlow : 2 ≤ s.pc.toNat) (hhigh : s.pc.toNat ≤ 0x1000) (hlive : s.LiveEntriesInRange)
    (h : exec i s = .next t) : t.LiveEntriesInRange := by
  cases i with
  | call nnn =>
    rcases exec_call_cases h with ⟨hroom, rfl⟩ | rfl
    · intro k hk hkSp
      rw [Vector.getElem_set]
      split
      · exact ⟨hlow, hhigh⟩
      · exact hlive k hk (Nat.lt_of_le_of_ne (Nat.le_of_lt_succ hkSp) (Ne.symm ‹_›))
    · exact hlive
  | ret g =>
    rcases exec_ret_cases h with ⟨hpos, rfl⟩ | rfl
    · exact fun k hk hkSp => hlive k hk (Nat.lt_of_lt_of_le hkSp (Nat.sub_le _ _))
    · exact hlive
  | _ =>
    have hstack : t.stack = s.stack := exec_same_part (p := .stackEntries) h (by simp [writtenParts]) (by decide)
    have hsp : t.sp = s.sp := exec_same_part (p := .sp) h (by simp [writtenParts]) (by decide)
    rwa [State.LiveEntriesInRange, hstack, hsp]

theorem State.skipIf_pc_le (s : State) (c : Bool) (h : s.pc.toNat ≤ 0x1000) : (s.skipIf c).pc.toNat ≤ 0x10FE := by
  rw [State.skipIf_pc]
  split
  · bv_omega
  · omega

theorem jumpTarget_le (nnn : Addr) : (jumpTarget nnn).toNat ≤ 0x10FE := by
  rw [toNat_jumpTarget]
  omega

theorem offsetTarget_le (nnn : Addr) (b : Byte) : (offsetTarget nnn b).toNat ≤ 0x10FE := by
  rw [toNat_offsetTarget]
  omega

/-- The highest PC an instruction can leave is that of `BFFF` with V0 = 0xFF (R108). -/
theorem exec_pc_le (hpc : s.pc.toNat ≤ 0x1000) (hlive : s.LiveEntriesInRange) (h : exec i s = .next t) :
    t.pc.toNat ≤ 0x10FE := by
  cases i with
  | jp nnn =>
    obtain rfl := Host.Outcome.next.inj h
    exact jumpTarget_le nnn
  | jpV0 nnn =>
    obtain rfl := Host.Outcome.next.inj h
    exact offsetTarget_le nnn (s.reg 0)
  | call nnn =>
    rcases exec_call_cases h with ⟨hroom, rfl⟩ | rfl
    · exact jumpTarget_le nnn
    · exact Nat.le_trans hpc (by decide)
  | ret g =>
    rcases exec_ret_cases h with ⟨hpos, rfl⟩ | rfl
    · have hsp := s.sp.isLt
      obtain ⟨-, htop⟩ := hlive (s.sp.val - 1) (by omega) (by omega)
      exact Nat.le_trans htop (by decide)
    · exact Nat.le_trans hpc (by decide)
  | seImm _ _ | sneImm _ _ | seReg _ _ _ | sneReg _ _ _ =>
    obtain rfl := Host.Outcome.next.inj h
    exact s.skipIf_pc_le _ hpc
  | skp x | sknp x =>
    obtain rfl := Host.Outcome.next.inj h
    exact s.keyTaken.skipIf_pc_le _ hpc
  | _ =>
    have hsame : t.pc = s.pc := exec_same_part (p := .pc) h (by simp [writtenParts]) (by decide)
    rw [hsame]
    omega

/-- Ranges are kept where PC, the stack and the agenda are. -/
theorem State.InRange.of_same (hs : s.InRange) (hpc : t.pc = s.pc) (hstack : t.stack = s.stack) (hsp : t.sp = s.sp)
    (hagenda : t.agenda = s.agenda) : t.InRange := by
  obtain ⟨hle, hlive, hnoLoad⟩ := hs
  refine ⟨by rwa [hpc], ?_, by rwa [State.noLoadComing, hagenda]⟩
  show t.LiveEntriesInRange
  rwa [State.LiveEntriesInRange, hstack, hsp]

/-- The fetch checks PC, so an instruction finds the address after its own word, 0x1000 at most (R204, R212). -/
theorem cycle_inRange (hs : s.InRange) (h : cycle s = .next t) : t.InRange := by
  have hagenda := (cycle_sameHostSide h).agenda
  have hnoLoad : t.noLoadComing := by
    rw [State.noLoadComing, hagenda]
    exact hs.noLoad
  have hpc {op : Word} (hf : s.fetchWord = some op) :
      (s.fetched op).pc.toNat = s.pc.toNat + 2 ∧ s.pc.toNat ≤ 0xFFE := by
    have hle : s.pc.toNat ≤ 0xFFE := by
      by_contra hgt
      exact nomatch hf.symm.trans (s.fetchWord_of_gt (Nat.lt_of_not_le hgt))
    rw [State.fetched_pc]
    bv_omega
  rcases cycle_cases h with ⟨-, rfl⟩ | ⟨op, i, hf, -, he⟩ | ⟨op, hf, -, rfl⟩
  · exact hs.of_same rfl rfl rfl rfl
  · obtain ⟨hnext, hle⟩ := hpc hf
    have hhigh : (s.fetched op).pc.toNat ≤ 0x1000 := by omega
    exact ⟨exec_pc_le hhigh hs.live he, exec_live (by omega) hhigh hs.live he, hnoLoad⟩
  · obtain ⟨hnext, hle⟩ := hpc hf
    refine ⟨?_, hs.live, hnoLoad⟩
    show (s.fetched op).pc.toNat ≤ 0x10FE
    omega

theorem instructionStep_inRange (hs : s.InRange) (h : instructionStep s = .next t) : t.InRange := by
  rcases instructionStep_cases h with ⟨-, rfl⟩ | ⟨-, -, rfl⟩ | ⟨-, -, hc⟩
  · exact hs
  · exact hs.of_same (s.poll_frame .pc (by decide)) (s.poll_frame .stackEntries (by decide))
      (s.poll_frame .sp (by decide)) (s.poll_frame .agenda (by decide))
  · exact cycle_inRange hs hc

theorem State.tickIfRunning_inRange (hs : s.InRange) : s.tickIfRunning.InRange := by
  unfold State.tickIfRunning
  split
  · exact hs.of_same rfl rfl rfl rfl
  · exact hs

/-- Of the commands only load-state can bring PC or an entry from outside the ranges. -/
theorem State.command_inRange (hs : s.InRange) {c : Command} (hc : ∀ f, c ≠ .loadState f) : (s.command c).InRange := by
  cases c with
  | reset rom =>
    show (s.resetCommand rom).InRange
    rcases Nat.lt_or_ge 3584 rom.length with hlong | hfits
    · rw [s.resetCommand_of_gt rom hlong]
      exact hs.of_same rfl rfl rfl rfl
    · rw [s.resetCommand_of_le rom hfits]
      exact ⟨(by decide : (0x200#16).toNat ≤ 0x10FE), fun k _ hk => absurd hk (Nat.not_lt_zero k), hs.noLoad⟩
  | pause | unpause | saveState => exact hs.of_same rfl rfl rfl rfl
  | stop =>
    show s.stop.InRange
    unfold State.stop
    split
    · exact hs
    · exact hs.of_same rfl rfl rfl rfl
  | loadState f => exact absurd rfl (hc f)

/-- Every event but a load-state keeps the ranges (R42). -/
theorem perform_inRange {e : Event} (hs : s.InRange) (he : ∀ f, e ≠ .command (.loadState f))
    (h : perform s e = .next t) : t.InRange := by
  rcases perform_cases h with
    ⟨-, hi⟩ | ⟨reads, u, -, hi, rfl⟩ | ⟨-, rfl⟩ | ⟨c, rfl, rfl⟩ | ⟨rate, -, rfl⟩ | ⟨p, -, rfl⟩
  · exact instructionStep_inRange hs hi
  · exact (instructionStep_inRange hs hi).of_same rfl rfl rfl rfl
  · exact s.tickIfRunning_inRange hs
  · exact s.command_inRange hs fun f hf => he f (congrArg Event.command hf)
  · exact hs.of_same rfl rfl rfl rfl
  · exact hs.of_same rfl rfl rfl rfl

/-- A due event that is no step stands on the agenda. -/
theorem State.due_mem_agenda (h : s.due ≠ .step) : s.due ∈ s.agenda := by
  unfold State.due at h ⊢
  cases ha : s.agenda with
  | nil =>
    rw [ha] at h
    exact absurd rfl h
  | cons e rest => exact List.mem_cons_self

theorem State.begun_inRange (hs : s.InRange) : s.begun.InRange :=
  ⟨hs.pc, hs.live, fun f hf => hs.noLoad f (List.mem_of_mem_tail hf)⟩

end

/-- Settles O46: every event keeps the invariant, and taking it off the agenda does too. -/
theorem stepKeepsTheInvariant : Obligations.StepKeepsTheInvariant := by
  unfold Obligations.StepKeepsTheInvariant
  exact fun s _ hs h => perform_inv (s.begun_inv hs) h

/-- Settles O48: every event keeps the ranges but a load-state, and none is due because none is on the agenda. -/
theorem stepKeepsTheRanges : Obligations.StepKeepsTheRanges := by
  unfold Obligations.StepKeepsTheRanges
  intro s t hs h
  refine perform_inRange (s.begun_inRange hs) (fun f hdue => hs.noLoad f ?_) h
  rw [← hdue]
  refine s.due_mem_agenda fun hstep => ?_
  exact nomatch hdue.symm.trans hstep

/-- Settles O47: memory is empty, no wait and no fault is on, and the stack is empty. -/
theorem resetStateMeetsTheInvariant : Obligations.ResetStateMeetsTheInvariant := by
  unfold Obligations.ResetStateMeetsTheInvariant
  exact ⟨.of_noWait rfl rfl fun h => absurd rfl h, by decide, fun k _ hk => absurd hk (Nat.not_lt_zero k),
    fun _ => List.not_mem_nil⟩

end Sys2Proof.Machine

/-! PROOFS. Outputs and the run state over events (`spec/60_exceptions.md` R206, R213 to R222, R234, R236): where tone
pulses come from, how Stopped is entered and left, and runs of ticks. -/

namespace Sys2Proof.Machine

section

variable {s t u : State} {i : Instr}

/-! ### Tone pulses -/

/-- A word that starts the tone is the word of `FX18` of a register that is not 0 (R177). -/
theorem State.startsTone_iff (s : State) :
    s.startsTone ↔ ∃ x, s.fetchWord = some (encode (.ldStVx x)) ∧ s.reg x ≠ 0 := by
  constructor
  · rintro ⟨op, x, hf, hd, hx⟩
    exact ⟨x, by rw [hf, encode_of_decodeWord hd], hx⟩
  · rintro ⟨x, hf, hx⟩
    exact ⟨_, x, hf, decodeWord_encode _, hx⟩

/-! ### Leaving Stopped -/

/-- A command to a Stopped machine leaves it Stopped with its fault record, but for an accepted reset (R205, R213). -/
theorem State.command_of_stopped (hs : s.runState = .stopped) (c : Command) :
    ((s.command c).runState = .stopped ∧ Part.same s (s.command c) .faultRecord) ∨
      ∃ rom, c = .reset rom ∧ rom.length ≤ 3584 := by
  cases c with
  | reset rom =>
    rcases Nat.lt_or_ge 3584 rom.length with hlong | hfits
    · rw [State.command, s.resetCommand_of_gt rom hlong]
      exact Or.inl ⟨hs, rfl, rfl, rfl⟩
    · exact Or.inr ⟨rom, rfl, hfits⟩
  | pause => exact Or.inl ⟨s.pause_stopped_iff.mpr hs, rfl, rfl, rfl⟩
  | unpause => exact Or.inl ⟨s.unpause_stopped_iff.mpr hs, rfl, rfl, rfl⟩
  | stop =>
    rw [State.command, State.stop, if_pos hs]
    exact Or.inl ⟨hs, rfl, rfl, rfl⟩
  | saveState => exact Or.inl ⟨hs, rfl, rfl, rfl⟩
  | loadState f =>
    rw [State.command, State.loadCommand]
    split
    · exact Or.inl ⟨hs, rfl, rfl, rfl⟩
    · exact Or.inl ⟨hs, rfl, rfl, rfl⟩

/-- So does every other event. -/
theorem perform_of_stopped {e : Event} (hs : s.runState = .stopped) (h : perform s e = .next t) :
    (t.runState = .stopped ∧ Part.same s t .faultRecord) ∨
      ∃ rom, e = .command (.reset rom) ∧ rom.length ≤ 3584 := by
  have hidle : s.runState ≠ .running := fun hrun => nomatch hs.symm.trans hrun
  rcases perform_cases h with
    ⟨-, hi⟩ | ⟨reads, u, -, hi, rfl⟩ | ⟨-, rfl⟩ | ⟨c, rfl, rfl⟩ | ⟨rate, -, rfl⟩ | ⟨p, -, rfl⟩
  · obtain rfl := Host.Outcome.next.inj ((instructionStep_of_idle hidle).symm.trans hi)
    exact Or.inl ⟨hs, rfl, rfl, rfl⟩
  · obtain rfl := Host.Outcome.next.inj ((instructionStep_of_idle hidle).symm.trans hi)
    exact Or.inl ⟨hs, rfl, rfl, rfl⟩
  · rw [State.tickIfRunning_of_idle hidle]
    exact Or.inl ⟨hs, rfl, rfl, rfl⟩
  · rcases State.command_of_stopped hs c with hkept | ⟨rom, rfl, hfits⟩
    · exact Or.inl hkept
    · exact Or.inr ⟨rom, rfl, hfits⟩
  · exact Or.inl ⟨hs, rfl, rfl, rfl⟩
  · exact Or.inl ⟨hs, rfl, rfl, rfl⟩

/-! ### Entering Stopped -/

/-- The codes of the faults that stop a run (R202 to R204). -/
def FaultKind.StopsRun (k : FaultKind) : Prop := k.code = 2 ∨ k.code = 3 ∨ k.code = 4

theorem faultOf_stopsRun {k : FaultKind} (h : faultOf i = some k) : k.StopsRun := by
  rcases faultOf_cases h with ⟨rfl, -⟩ | ⟨rfl, -⟩ | ⟨rfl, -⟩
  · exact Or.inl rfl
  · exact Or.inr (Or.inl rfl)
  · exact Or.inr (Or.inr rfl)

/-- An instruction step stops a Running machine only by a fault, of the fetch or of the instruction. -/
theorem instructionStep_stops (hrun : s.runState = .running) (h : instructionStep s = .next t)
    (hstop : t.runState = .stopped) : t.faultKind.StopsRun := by
  rcases instructionStep_cases h with ⟨hidle, -⟩ | ⟨-, -, rfl⟩ | ⟨-, -, hc⟩
  · exact absurd hrun hidle
  · have hkept : s.poll.runState = s.runState := s.poll_frame .runState (by decide)
    exact nomatch hrun.symm.trans (hkept.symm.trans hstop)
  · rcases cycle_cases hc with ⟨-, rfl⟩ | ⟨op, i, -, -, he⟩ | ⟨op, -, -, rfl⟩
    · exact Or.inr (Or.inr rfl)
    · rcases exec_outcome he with hframe | ⟨k, hk, rfl⟩
      · have hkept : t.runState = s.runState := hframe .runState (runState_not_mem_writtenParts i)
        exact nomatch hrun.symm.trans (hkept.symm.trans hstop)
      · exact faultOf_stopsRun hk
    · exact nomatch hrun.symm.trans hstop

/-- Of the commands to a Running machine only stop leaves it Stopped, with the fault record kept (R216). -/
theorem State.command_stops (hrun : s.runState = .running) {c : Command} (hstop : (s.command c).runState = .stopped) :
    c = .stop ∧ (s.command c).faultKind = s.faultKind := by
  have hnot : s.runState ≠ .stopped := fun h => nomatch hrun.symm.trans h
  cases c with
  | reset rom =>
    rcases Nat.lt_or_ge 3584 rom.length with hlong | hfits
    · rw [State.command, s.resetCommand_of_gt rom hlong] at hstop
      exact absurd hstop hnot
    · rw [State.command, s.resetCommand_of_le rom hfits] at hstop
      exact nomatch hstop
  | pause => exact absurd (s.pause_stopped_iff.mp hstop) hnot
  | unpause => exact absurd (s.unpause_stopped_iff.mp hstop) hnot
  | stop =>
    rw [State.command, State.stop, if_neg hnot]
    exact ⟨rfl, rfl⟩
  | saveState => exact absurd hstop hnot
  | loadState f =>
    rw [State.command, s.loadCommand_refused f (Or.inl hrun)] at hstop
    exact absurd hstop hnot

/-- A Running machine is stopped by a stop command, or by a fault inside an instruction step. -/
theorem perform_stops {e : Event} (hrun : s.runState = .running) (h : perform s e = .next t)
    (hstop : t.runState = .stopped) :
    (e = .command .stop ∧ t.faultKind = s.faultKind) ∨
      ((e = .step ∨ ∃ reads, e = .tornStep reads) ∧ t.faultKind.StopsRun) := by
  have hnot : s.runState ≠ .stopped := fun h => nomatch hrun.symm.trans h
  rcases perform_cases h with
    ⟨he, hi⟩ | ⟨reads, u, he, hi, rfl⟩ | ⟨-, rfl⟩ | ⟨c, rfl, rfl⟩ | ⟨rate, -, rfl⟩ | ⟨p, -, rfl⟩
  · exact Or.inr ⟨Or.inl he, instructionStep_stops hrun hi hstop⟩
  · exact Or.inr ⟨Or.inr ⟨reads, he⟩, instructionStep_stops (t := u) hrun hi hstop⟩
  · rw [State.tickIfRunning_of_running hrun] at hstop
    exact absurd hstop hnot
  · obtain ⟨rfl, hkind⟩ := State.command_stops hrun hstop
    exact Or.inl ⟨rfl, hkind⟩
  · exact absurd hstop hnot
  · exact absurd hstop hnot

/-! ### Runs of ticks -/

theorem run_succ {n : Nat} (h : step s = .next u) : Host.Core.run core (n + 1) s = Host.Core.run core n u := by
  have hcore : core.step s = .next u := h
  simp only [Host.Core.run, hcore]

/-- The pulse of the first of `n + 1` ticks, if it takes ST to 0, is the only one. -/
theorem tonePulses_succ (b : Byte) (n : Nat) :
    (if b = 1 then [Output.toneStop] else []) ++
        (if 0 < (countDown b).toNat ∧ (countDown b).toNat ≤ n then [Output.toneStop] else []) =
      if 0 < b.toNat ∧ b.toNat ≤ n + 1 then [Output.toneStop] else [] := by
  rw [toNat_countDown]
  by_cases hb : b = 1
  · simp [hb]
  · have hne : b.toNat ≠ 1 := fun h => hb (BitVec.eq_of_toNat_eq h)
    have hiff : (0 < b.toNat - 1 ∧ b.toNat - 1 ≤ n) ↔ (0 < b.toNat ∧ b.toNat ≤ n + 1) := by omega
    rw [if_neg hb, List.nil_append]
    simp only [hiff]

end

/-- Settles O44: the pulses of the due event, with the word at PC read back from its decoding. -/
theorem tonePulsesComeFromTwoPlaces : Obligations.TonePulsesComeFromTwoPlaces := by
  unfold Obligations.TonePulsesComeFromTwoPlaces
  intro s t h
  refine (perform_pulses (s := s.begun) h).mono id ?_
  rintro ⟨hdue, hrun, hwait, hstarts⟩
  exact ⟨hdue, hrun, hwait, s.begun.startsTone_iff.mp hstarts⟩

/-- Settles O45: no event but an accepted reset changes RUN_STATE or the record of a Stopped machine, and one with a
fault on record is Stopped. -/
theorem stoppedIsLeftOnlyByReset : Obligations.StoppedIsLeftOnlyByReset := by
  unfold Obligations.StoppedIsLeftOnlyByReset
  exact ⟨fun s t h hs => perform_of_stopped (s := s.begun) hs h,
    fun s t hinv h hf => perform_of_stopped (s := s.begun) (hinv.faulted hf) h⟩

/-- Settles O59: a stop command keeps the record of a Running machine, which is empty; a fault writes its own kind. -/
theorem stoppedShowsItsCause : Obligations.StoppedShowsItsCause := by
  unfold Obligations.StoppedShowsItsCause
  intro s t hinv hrun h hstop
  refine ⟨congrArg RunState.code hstop, ?_⟩
  rcases perform_stops (s := s.begun) hrun h hstop with ⟨hdue, hkind⟩ | ⟨hdue, hkind⟩
  · exact Or.inl ⟨hdue, congrArg FaultKind.code (hkind.trans (hinv.faultKind_of_running hrun))⟩
  · exact Or.inr ⟨hdue, hkind⟩

/-- Settles O58: the codes stand in two tables, and a fatal fault entry gives every field that the port shows. -/
theorem statusOutputCodes : Obligations.StatusOutputCodes := by
  unfold Obligations.StatusOutputCodes
  refine ⟨⟨rfl, rfl, rfl⟩, ⟨rfl, rfl, rfl, rfl, rfl, rfl, rfl⟩, fun _ => rfl, ?_⟩
  rintro kind op addr s t ⟨hkind, hop, haddr, hstop, -⟩
  rw [State.statusPort, hkind, hop, haddr, hstop]
  rfl

/-- Settles O34, by induction on the number of ticks: the first counts both timers down once and may pulse. -/
theorem ticksCountTimersToZeroOnce : Obligations.TicksCountTimersToZeroOnce := by
  unfold Obligations.TicksCountTimersToZeroOnce
  intro n
  induction n with
  | zero =>
    intro s rest _ hagenda
    have hnone : ¬ (0 < s.st.toNat ∧ s.st.toNat ≤ 0) := by omega
    exact ⟨s, rfl, rfl, rfl, by rw [if_neg hnone, List.append_nil], hagenda, .refl _ s⟩
  | succ n ih =>
    intro s rest hrun hagenda
    have hdue : s.due = .tick := by rw [State.due, hagenda]; rfl
    have hrest : s.begun.tick.agenda = List.replicate n .tick ++ rest := by
      rw [State.tick_agenda, State.begun_agenda, hagenda]
      rfl
    obtain ⟨t, hrunN, hdt, hst, houtputs, hagendaT, hframe⟩ := ih s.begun.tick rest hrun hrest
    rw [State.tick_dt, toNat_countDown] at hdt
    rw [State.tick_st, toNat_countDown] at hst
    rw [State.tick_outputs, State.tick_st, List.append_assoc, tonePulses_succ] at houtputs
    refine ⟨t, (run_succ (step_of_due_tick hrun hdue)).trans hrunN, ?_, ?_, houtputs, hagendaT,
      ((s.begun_frame.trans_append s.begun.tick_frame).mono (by decide)).trans hframe⟩
    · rw [hdt, Nat.sub_sub, Nat.add_comm 1 n]
      rfl
    · rw [hst, Nat.sub_sub, Nat.add_comm 1 n]
      rfl

end Sys2Proof.Machine

/-! PROOFS. The host's commands and reads (`spec/60_exceptions.md` R213 to R217, R235, R240 to R245;
`spec/44_sprite_draw.md` R158): the run state, the snapshot and its round trip, and the framebuffer port. -/

namespace Sys2Proof.Machine

section

variable {s t : State}

/-! ### The event that is due -/

theorem step_of_due_command {c : Command} (h : s.due = .command c) : step s = .next (s.begun.command c) := by
  rw [step, h, perform]

theorem step_of_due_readCell {p : BitVec 11} (h : s.due = .readCell p) :
    step s = .next (s.begun.emit [.cell p (s.begun.fbPort p)]) := by
  rw [step, h, perform]

/-- A step inside which the host reads cells is that step, then the records of the reads (R158). -/
theorem step_of_due_tornStep {reads : List TornRead} {u : State} (h : s.due = .tornStep reads)
    (hi : instructionStep s.begun = .next u) : step s = .next (u.emit (tornOutputs s.begun u reads)) := by
  rw [step, h, perform, hi, mapNext]

/-! ### Frames -/

/-- Writing RUN_STATE leaves every other part as it was. -/
theorem runState_frame (s : State) (r : RunState) : SameExcept [.runState] s { s with runState := r } :=
  (((runControl_frame s r s.waitKey s.ir).mono (qs := [.keyWait, .ir, .runState]) (by decide)).drop rfl).drop rfl

/-- A load-state writes the fields of the snapshot, WAITKEY and IR (R241). -/
theorem State.restored_frame (s : State) (f : Snapshot) :
    SameExcept [.registers, .index, .pc, .stackEntries, .sp, .delayTimer, .soundTimer, .screen, .memory, .keyWait, .ir]
      s (s.restored f) := by
  intro p hp
  cases p with
  | registers | index | pc | stackEntries | sp | delayTimer | soundTimer | screen | memory | keyWait | ir =>
    exact absurd hp (by decide)
  | faultRecord => exact ⟨rfl, rfl, rfl⟩
  | keyInput | randomInput => exact ⟨rfl, rfl⟩
  | font | runState | cycleRate | agenda | outputs => rfl

/-! ### The fields of a snapshot and back -/

theorem State.snapshot_v_get (s : State) (r : Reg) : s.snapshot.v[r.toNat]? = some (s.reg r) := by
  rw [State.snapshot_v, Vector.getElem?_toList, Vector.getElem?_eq_getElem r.isLt]
  rfl

theorem State.snapshot_stack_get (s : State) {k : Nat} (h : k < 16) : s.snapshot.stack[k]? = some s.stack[k] := by
  rw [State.snapshot_stack, Vector.getElem?_toList, Vector.getElem?_eq_getElem h]

/-- A vector written out as a list and put back is the same vector. -/
theorem vectorOf_toList {α : Type} {n : Nat} (d : α) (v : Vector α n) : vectorOf n d v.toList = v := by
  apply Vector.ext
  intro k hk
  rw [getElem_vectorOf, List.getD_eq_getElem?_getD, Vector.getElem?_toList, Vector.getElem?_eq_getElem hk]
  rfl

/-- A screen read out cell by cell and put back is the same screen. -/
theorem screenOf_snapshot_fb (s : State) : screenOf s.snapshot.fb = s.fb := by
  apply Framebuffer.ext_lit
  intro x y hx hy
  rw [lit_screenOf _ x y hx hy, List.getD_eq_getElem?_getD, s.snapshot_fb_get x y hx hy]
  cases Framebuffer.lit s.fb x y <;> rfl

/-- Memory read out byte by byte and put back reads the same, above its last address too. -/
theorem read_image_snapshot_mem (s : State) (font : Font) (hwf : Memory.wf s.font s.mem = true) (a : Nat) :
    Memory.read font (Memory.image font 0 s.snapshot.mem) a = s.byteAt a := by
  rw [Memory.read_image]
  rcases Nat.lt_or_ge a Config.memSize with hin | hout
  · have hlen : 0 ≤ a ∧ a - 0 < s.snapshot.mem.length := ⟨Nat.zero_le a, by rw [s.snapshot_mem_length]; exact hin⟩
    rw [dif_pos hlen]
    exact Option.some.inj ((List.getElem?_eq_getElem hlen.2).symm.trans (s.snapshot_mem_get a hin))
  · have hlen : ¬ (0 ≤ a ∧ a - 0 < s.snapshot.mem.length) := by
      rw [s.snapshot_mem_length]
      omega
    rw [dif_neg hlen, Memory.unlisted_of_ge _ (Nat.le_trans (by decide) hout)]
    exact (Memory.read_of_ge s.font s.mem 0 hwf a hout).symm

/-- A state restored from a snapshot agrees with the state that the snapshot was taken of in every field of it. -/
theorem State.restored_snapshot_frame (u s : State) (hwf : Memory.wf s.font s.mem = true) :
    SameExcept [.font, .runState, .faultRecord, .cycleRate, .keyWait, .ir, .keyInput, .randomInput, .agenda, .outputs]
      s (u.restored s.snapshot) := by
  intro p hp
  cases p with
  | font | runState | faultRecord | cycleRate | keyWait | ir | keyInput | randomInput | agenda | outputs =>
    exact absurd hp (by decide)
  | registers => exact fun r => State.reg_of_v (vectorOf_toList 0 s.v) r
  | index => exact BitVec.eq_of_toNat_eq (Nat.mod_eq_of_lt s.i.isLt)
  | stackEntries => exact vectorOf_toList 0 s.stack
  | sp => exact Fin.ofNat_val_eq_self s.sp
  | screen => exact screenOf_snapshot_fb s
  | memory => exact read_image_snapshot_mem s u.font hwf
  | pc | delayTimer | soundTimer => rfl

/-! ### The load-state that is refused -/

theorem Snapshot.not_accepted {f : Snapshot} (h : 16 < f.sp ∨ 0xFFF < f.i ∨ f.mem.length ≠ 4096 ∨ f.v.length ≠ 16 ∨
    f.stack.length ≠ 16 ∨ f.fb.length ≠ 2048 ∨ ∃ b ∈ f.fb, b ≠ 0 ∧ b ≠ 1) : f.accepted = false := by
  rw [← Bool.not_eq_true, f.accepted_iff]
  rintro ⟨hmem, hv, hstack, hfb, hsp, hi, hcells⟩
  rcases h with h | h | h | h | h | h | ⟨b, hb, h0, h1⟩
  · omega
  · omega
  · exact h hmem
  · exact h hv
  · exact h hstack
  · exact h hfb
  · exact (hcells b hb).elim h0 h1

end

/-- Settles O49: each command is a write of RUN_STATE; a stop of a machine not yet Stopped also ends the wait. -/
theorem runStateCommands : Obligations.RunStateCommands := by
  unfold Obligations.RunStateCommands
  intro s
  refine ⟨fun hdue => ?_, fun hdue => ?_, fun hdue => ?_⟩
  · exact ⟨_, step_of_due_command hdue, rfl, s.begun_frame.trans_append (runState_frame _ _)⟩
  · exact ⟨_, step_of_due_command hdue, rfl, s.begun_frame.trans_append (runState_frame _ _)⟩
  · by_cases hs : s.runState = .stopped
    · have hkept : s.begun.command .stop = s.begun := if_pos hs
      rw [step_of_due_command hdue, hkept]
      exact ⟨_, rfl, hs, fun hnot => absurd hs hnot, fun _ => s.begun_frame, s.begun_frame.mono (by decide)⟩
    · have hhalted : s.begun.command .stop = s.begun.halted := if_neg hs
      rw [step_of_due_command hdue, hhalted]
      exact ⟨_, rfl, rfl, fun _ => ⟨rfl, rfl⟩, fun h => absurd h hs,
        s.begun_frame.trans_append (runControl_frame s.begun _ _ _)⟩

/-- Settles O52: the command emits the snapshot, whose lists hold each field at its index. -/
theorem saveStateHandsOutTheFields : Obligations.SaveStateHandsOutTheFields := by
  unfold Obligations.SaveStateHandsOutTheFields
  intro s hdue
  exact ⟨_, s.begun.snapshot, step_of_due_command hdue, rfl,
    ⟨s.begun.snapshot_mem_length, s.begun.snapshot_mem_get⟩, rfl, ⟨s.v.length_toList, s.begun.snapshot_v_get⟩, rfl,
    ⟨s.stack.length_toList, fun _ => s.begun.snapshot_stack_get⟩, rfl, rfl, rfl,
    ⟨s.begun.snapshot_fb_length, s.begun.snapshot_fb_get⟩, rfl, s.begun_frame.trans_append (State.emit_frame _ _)⟩

/-- Settles O53: the snapshot of a state is accepted, and each of its fields put back reads as in that state. -/
theorem saveThenLoadRestoresEveryField : Obligations.SaveThenLoadRestoresEveryField := by
  unfold Obligations.SaveThenLoadRestoresEveryField
  intro s u hwf hidle hdue
  have hstep : step u = .next (u.begun.restored s.snapshot) :=
    (step_of_due_command hdue).trans (congrArg _ (u.begun.loadCommand_taken _ hidle s.snapshot_accepted))
  exact ⟨_, hstep, u.begun.restored_snapshot_frame s hwf, rfl, rfl,
    u.begun_frame.trans_append (u.begun.restored_frame _)⟩

/-- Settles O54: each condition is one that the command checks, and a refused command is one diagnostic. -/
theorem loadStateIsRefused : Obligations.LoadStateIsRefused := by
  unfold Obligations.LoadStateIsRefused
  intro s f hdue hbad
  have hrefused := s.begun.loadCommand_refused f (hbad.imp_right Snapshot.not_accepted)
  exact ⟨_, (step_of_due_command hdue).trans (congrArg _ hrefused), rfl, rfl,
    s.begun_frame.trans_append (State.emit_frame _ _)⟩

/-- Settles O55: a read emits the cell; a step with reads is the plain step followed by their records. -/
theorem framebufferReads : Obligations.FramebufferReads := by
  unfold Obligations.FramebufferReads
  constructor
  · intro s p hdue
    exact ⟨_, step_of_due_readCell hdue, rfl, rfl, s.begun_frame.trans_append (State.emit_frame _ _)⟩
  · intro s u reads rest hagenda hplain
    have hdue : s.due = .tornStep reads := by rw [State.due, hagenda]; rfl
    have hi : instructionStep s.begun = .next u := by
      rw [← hplain, State.begun, hagenda]
      rfl
    refine ⟨_, step_of_due_tornStep hdue hi, u.emit_frame _, congrArg (u.outputs ++ ·) ?_⟩
    refine List.map_congr_left fun r _ => ?_
    cases r.after <;> rfl

end Sys2Proof.Machine

/-! PROOFS. The remaining instructions and the statements about two in a row (`spec/43_random.md` R150;
`spec/44_sprite_draw.md` R155; `spec/46_timers.md` R176; `spec/48_screen_clear.md` R198;
`spec/20_memory.md` R53). -/

namespace Sys2Proof.Machine

section

variable {s t : State}

/-! ### The random byte -/

theorem State.random_of_cons {r : Byte} {rest : List Byte} (h : s.rndFeed = r :: rest) : s.random = r := by
  rw [State.random, h, List.headD_cons]

theorem State.random_of_nil (h : s.rndFeed = []) : s.random = Config.randomByte s.rndDraws := by
  rw [State.random, h, List.headD_nil]

/-! ### The same sprite drawn twice -/

/-- The pixels of a sprite depend on its corner, I and memory (R155). -/
theorem State.spritePixel_of_same {x y : Reg} {n : Nibble} (hx : (t.reg x).toNat % 64 = (s.reg x).toNat % 64)
    (hy : (t.reg y).toNat % 32 = (s.reg y).toNat % 32) (hi : t.i = s.i) (hmem : ∀ a, t.byteAt a = s.byteAt a)
    (col row : Nat) : t.spritePixel x y n col row = s.spritePixel x y n col row := by
  simp only [State.spritePixel, hx, hy, hi, hmem]

end

/-- Settles O25: the instruction is one draw from the feed or past it, then one register write. -/
theorem randomResult : Obligations.RandomResult := by
  unfold Obligations.RandomResult
  refine ⟨fun w h => decodeWord_rnd (opTop_of_masked rfl h), fun s x nn => ?_⟩
  refine ⟨_, rfl, fun r rest hfeed => ?_, fun hfeed => ?_, rfl, State.setReg_sameRegsBut _ _ _,
    s.randomTaken_frame.trans_append (s.randomTaken.setReg_frame x _)⟩
  · exact ⟨by rw [State.reg_setReg_same, State.random_of_cons hfeed], congrArg List.tail hfeed⟩
  · exact ⟨by rw [State.reg_setReg_same, State.random_of_nil hfeed], congrArg List.tail hfeed⟩

/-- Settles O28: the instruction is one write of the dark screen. -/
theorem clearResult : Obligations.ClearResult := by
  unfold Obligations.ClearResult
  exact ⟨fun w h => decodeWord_of_family0_row rfl h decodeFamily0_cls,
    fun s g => ⟨_, rfl, Framebuffer.lit_dark, screen_frame s _⟩⟩

/-- Settles O32: the instruction is one write of DT. -/
theorem delayTimerWriteResult : Obligations.DelayTimerWriteResult := by
  unfold Obligations.DelayTimerWriteResult
  exact ⟨fun w h => decodeWord_of_familyF_row rfl h decodeFamilyF_ldDtVx,
    fun s x => ⟨_, rfl, rfl, delayTimer_frame s _⟩⟩

/-- Settles O39: the store leaves V0 and V1 at PC and PC + 1, where the fetch reads. -/
theorem storedBytesAreFetchedAsStored : Obligations.StoredBytesAreFetchedAsStored := by
  unfold Obligations.StoredBytesAreFetchedAsStored
  intro s x hwf hi hx hin
  obtain ⟨-, hstore⟩ := storeRegistersResult
  obtain ⟨t, ht, hbytes, -, hframe⟩ := (hstore s x).1 hwf hin
  have hpc : t.pc = s.pc := hframe .pc (by decide)
  have hhigh : t.byteAt s.pc.toNat = s.reg 0 := by rw [← hi]; exact hbytes 0 (Nat.zero_le _)
  have hlow : t.byteAt (s.pc.toNat + 1) = s.reg 1 := by rw [← hi]; exact hbytes 1 hx
  refine ⟨t, ht, ?_⟩
  rw [State.fetchWord_of_le t (by rw [hpc]; omega), hpc, hhigh, hlow]
  rfl

/-- Settles O27: the second draw turns over the very pixels of the first, and hits where the first lit a cell. -/
theorem drawingTwiceRestoresTheScreen : Obligations.DrawingTwiceRestoresTheScreen := by
  unfold Obligations.DrawingTwiceRestoresTheScreen
  intro s t u x y n hin ht hu hx hy
  obtain rfl := Host.Outcome.next.inj ((exec_drw_of_inBounds s x y n hin).symm.trans ht)
  set t := s.drawn (s.drawing x y n)
  have hpixel : ∀ col row, t.spritePixel x y n col row = s.spritePixel x y n col row :=
    State.spritePixel_of_same hx hy rfl fun _ => rfl
  have hin' : t.i.toNat + t.rowsOnScreen y n ≤ 0x1000 := by
    rw [State.rowsOnScreen, hy]
    exact hin
  obtain rfl := Host.Outcome.next.inj ((exec_drw_of_inBounds t x y n hin').symm.trans hu)
  have hlit {col row : Nat} (hcol : col < 64) (hrow : row < 32) : Framebuffer.lit t.fb col row =
      (Framebuffer.lit s.fb col row ^^ s.spritePixel x y n col row) := s.lit_drawing x y n hcol hrow
  refine ⟨Framebuffer.ext_lit fun col row hcol hrow => ?_, ?_⟩
  · have hagain := t.lit_drawing x y n hcol hrow
    rwa [hlit hcol hrow, hpixel, Bool.xor_assoc, Bool.xor_self, Bool.xor_false] at hagain
  · have hflag : (t.drawn (t.drawing x y n)).reg 0xF = 1 ↔ (t.drawing x y n).2 = true := by
      rw [State.drawn_flag]
      cases (t.drawing x y n).2 <;> decide
    rw [hflag, t.drawing_hit_iff x y n]
    constructor
    · rintro ⟨col, row, hcol, hrow, hon, hlitT⟩
      have hcell := hlit hcol hrow
      rw [hlitT, ← hpixel, hon] at hcell
      exact ⟨col, row, by simpa using hcell, hlitT⟩
    · rintro ⟨col, row, hdark, hlitT⟩
      obtain ⟨hcol, hrow⟩ : col < 64 ∧ row < 32 := by
        by_contra hoff
        rw [Framebuffer.lit_of_off _ hoff] at hlitT
        exact Bool.false_ne_true hlitT
      have hcell := hlit hcol hrow
      rw [hlitT, hdark, Bool.false_xor] at hcell
      exact ⟨col, row, hcol, hrow, (hpixel col row).trans hcell.symm, hlitT⟩

end Sys2Proof.Machine
